-- ==== Sys2Proof/Word.lean ====
section
/-! DEFINITION. The plain value types of the Jastrel 4800: link bytes, shot samples, route and window numbers, and
the sets the manual writes as bits in a frame (R184). -/

namespace Sys2Proof

/-- One character on a client link (R176: eight data bits). -/
abbrev Byte := BitVec 8

/-- One sample of a shot record, 0..65535 (R2). -/
abbrev Sample := BitVec 16

/-- A route number, which is also its switch port number, 0..47 (R62). -/
abbrev RouteNo := Fin 48

/-- A quiet window's number, 0..7 (R145). -/
abbrev WindowNo := Fin 8

/-- A set of routes: route `r` is a member when bit `r` is set (R184). -/
abbrev RouteSet := BitVec 48

/-- A subset of {SC-A, SC-B, LS, CR}, SC-A at bit 0 (R184). -/
abbrev HoldSet := BitVec 4

/-- A subset of {SC-A, SC-B, LS, CR, CONFIRM}, SC-A at bit 0 and CONFIRM at bit 4 (R184). -/
abbrev RequesterSet := BitVec 5

/-- A subset of {MINUTE, HOUR, WEEKDAY}, MINUTE at bit 0 (Table 11-8). -/
abbrev FactorSet := BitVec 3

/-- A subset of the weekdays 0..6, weekday `w` at bit `w` (Table 11-8). -/
abbrev WeekdaySet := BitVec 7

/-- A subset of the mark numbers 0..3, mark `m` at bit `m` (Table 11-8). -/
abbrev MarkSet := BitVec 4

/-- An averaged value or a live-check reading on the averaged scale, 0..16,776,960 (R29, R30). -/
abbrev Averaged := Fin 16776961

end Sys2Proof
end

