-- ==== Sys2Proof/Syntax.lean ====
section
/-! DEFINITION. The commands of the Jastrel 4800: one constructor of `Instr` per row of spec/opcode_table.json.

A request row is the arrival, on the named client's link, of the last byte of a good frame that carries the request
with the given tag and well-shaped parameters (R178 to R180). `Request` is the same request without its link and tag:
it is what the parameters of a received frame parse to. -/

namespace Sys2Proof

/-- The four clients (Table 0-1). -/
inductive Client where
  | scA | scB | ls | cr
deriving DecidableEq, Repr

/-- The definition a DEFINE_ROUTE carries (R64): the optional label (its characters) and the thirteen settings of
Table 4-1 from pulse width code to confirm count, as sent. -/
structure RouteDef where
  label : Option (List Nat)
  pulse : Nat
  spacing : Nat
  len : Nat
  shots : Nat
  index : Nat
  dead : Nat
  width : Nat
  tLoss : Nat
  tTotal : Nat
  tEnd : Nat
  tReflect : Nat
  floor : Nat
  confirm : Nat
deriving DecidableEq, Repr

/-- The settings a SET_WINDOW carries (R151), `enabled` being the code sent (0 no, 1 yes). -/
structure WindowDef where
  enabled : Nat
  hour : Nat
  minute : Nat
  factors : FactorSet
  weekdays : WeekdaySet
  duration : Nat
  routes : RouteSet
deriving DecidableEq, Repr

/-- The optional parts of a SET_NOTICES (R160), each a code of Table 11-8 or a number, as sent. -/
structure NoticeParts where
  faultMode : Option Nat := none
  done : Option Nat := none
  window : Option Nat := none
  equip : Option Nat := none
  log : Option Nat := none
  clearMode : Option Nat := none
  lineMode : Option Nat := none
  polarity : Option Nat := none
  pulseLen : Option Nat := none
  threshold : Option Nat := none
deriving DecidableEq, Repr

/-- The optional parts of a SET_DEVICE (R23, R80). A barred range is `none` for the value "none" or a pair. -/
structure DeviceParts where
  live : Option Nat := none
  timeout : Option Nat := none
  barred : Option (Option (Nat × Nat)) := none
deriving DecidableEq, Repr

/-- What an ACK_NOTICES names (R163). -/
structure AckParts where
  routes : RouteSet
  marks : MarkSet
  done : Bool
  window : Bool
  equip : Bool
  log : Bool
deriving DecidableEq, Repr

/-- A well-shaped request (Table 11-1), with the parameters its rule names in the order named. -/
inductive Request where
  | test (route kind cls : Nat)
  | cancel (id : Nat)
  | mark
  | readQueue (start : Nat)
  | defineRoute (route rev : Nat) (d : RouteDef)
  | deleteRoute (route rev : Nat)
  | readRoute (route : Nat)
  | readResult (route : Nat) (first : Option Nat)
  | readTrace (acq offset count : Nat)
  | readBaseline (route offset count : Nat) (expected : Option Nat)
  | hold (route : Nat)
  | release (route : Nat)
  | clearHolds (route : Nat)
  | setWindow (w : Nat) (d : WindowDef)
  | readWindow (w : Nat)
  | setClock (day hour minute : Nat) (start : Bool)
  | startClock
  | stopClock
  | readClock
  | setNotices (p : NoticeParts)
  | readNotices
  | ackNotices (a : AckParts)
  | readLog
  | setDevice (p : DeviceParts)
  | readDevice
  | readEquipment
  | clearEquipment
  | reset
deriving DecidableEq, Repr

/-- The commands: the 28 requests of the clients, the events of the links and of the shelf reset line, the events of
the optical path, and the events of the clock. -/
inductive Instr where
  -- requests (Table 11-1)
  | test (c : Client) (tag : Byte) (route kind cls : Nat)
  | cancel (c : Client) (tag : Byte) (id : Nat)
  | mark (c : Client) (tag : Byte)
  | readQueue (c : Client) (tag : Byte) (start : Nat)
  | defineRoute (c : Client) (tag : Byte) (route rev : Nat) (d : RouteDef)
  | deleteRoute (c : Client) (tag : Byte) (route rev : Nat)
  | readRoute (c : Client) (tag : Byte) (route : Nat)
  | readResult (c : Client) (tag : Byte) (route : Nat) (first : Option Nat)
  | readTrace (c : Client) (tag : Byte) (acq offset count : Nat)
  | readBaseline (c : Client) (tag : Byte) (route offset count : Nat) (expected : Option Nat)
  | hold (c : Client) (tag : Byte) (route : Nat)
  | release (c : Client) (tag : Byte) (route : Nat)
  | clearHolds (c : Client) (tag : Byte) (route : Nat)
  | setWindow (c : Client) (tag : Byte) (w : Nat) (d : WindowDef)
  | readWindow (c : Client) (tag : Byte) (w : Nat)
  | setClock (c : Client) (tag : Byte) (day hour minute : Nat) (start : Bool)
  | startClock (c : Client) (tag : Byte)
  | stopClock (c : Client) (tag : Byte)
  | readClock (c : Client) (tag : Byte)
  | setNotices (c : Client) (tag : Byte) (p : NoticeParts)
  | readNotices (c : Client) (tag : Byte)
  | ackNotices (c : Client) (tag : Byte) (a : AckParts)
  | readLog (c : Client) (tag : Byte)
  | setDevice (c : Client) (tag : Byte) (p : DeviceParts)
  | readDevice (c : Client) (tag : Byte)
  | readEquipment (c : Client) (tag : Byte)
  | clearEquipment (c : Client) (tag : Byte)
  | resetRequest (c : Client) (tag : Byte)
  -- events of the links
  | characterReceived (c : Client) (b : Byte)
  | framingError (c : Client)
  | gapTimerExpiry (c : Client)
  | replySent (c : Client)
  -- resets
  | craftReset
  | shelfReset
  | shelfResetRelease
  | powerOn
  -- events of the optical path
  | settled (port : RouteNo)
  | homeReached
  | switchStuck
  | homeFailed
  | liveCheckExpiry (reading : Averaged)
  | shotComplete (acq : Nat) (samples : List Sample)
  | acqTimeout
  | analysisComplete
  | blockWriteGood
  | blockWriteFailed
  | laserFaultSignal
  -- events of the attention lines and of the clock
  | pulseTimerExpiry (c : Client)
  | tick
  | minuteRollover
  | windowCountExpiry (w : WindowNo)
  -- the end of a laser fault
  | laserFaultEnds
deriving DecidableEq, Repr

/-- The command that is request `r` arriving on the link of `c` with tag `tag`. -/
def Request.on (c : Client) (tag : Byte) : Request → Instr
  | .test route kind cls => .test c tag route kind cls
  | .cancel id => .cancel c tag id
  | .mark => .mark c tag
  | .readQueue start => .readQueue c tag start
  | .defineRoute route rev d => .defineRoute c tag route rev d
  | .deleteRoute route rev => .deleteRoute c tag route rev
  | .readRoute route => .readRoute c tag route
  | .readResult route first => .readResult c tag route first
  | .readTrace acq offset count => .readTrace c tag acq offset count
  | .readBaseline route offset count expected => .readBaseline c tag route offset count expected
  | .hold route => .hold c tag route
  | .release route => .release c tag route
  | .clearHolds route => .clearHolds c tag route
  | .setWindow w d => .setWindow c tag w d
  | .readWindow w => .readWindow c tag w
  | .setClock day hour minute start => .setClock c tag day hour minute start
  | .startClock => .startClock c tag
  | .stopClock => .stopClock c tag
  | .readClock => .readClock c tag
  | .setNotices p => .setNotices c tag p
  | .readNotices => .readNotices c tag
  | .ackNotices a => .ackNotices c tag a
  | .readLog => .readLog c tag
  | .setDevice p => .setDevice c tag p
  | .readDevice => .readDevice c tag
  | .readEquipment => .readEquipment c tag
  | .clearEquipment => .clearEquipment c tag
  | .reset => .resetRequest c tag

end Sys2Proof
end

