-- ==== Sys2Proof/Decode.lean ====
section
/-! DEFINITION. From bits to commands. spec/opcode_table.json gives no row any bits, so `decodeTableWord` answers none.
The bits the manual does give are those of the request frames (R177, R178, R184): their check, the parsing of their
parameters, and the encoding of a request into a frame. -/

namespace Sys2Proof

/-- The command a table word spells: no row of the opcode table has bits, so no word spells one. -/
def decodeTableWord (_nbits _w : Nat) : Option Instr := none

/-! ### Numbers and sets in a frame (R184) -/

/-- A number in one byte. -/
def bytes1 (n : Nat) : List Byte := [BitVec.ofNat 8 n]

/-- A number in two bytes, high byte first. -/
def bytes2 (n : Nat) : List Byte := [BitVec.ofNat 8 (n / 256), BitVec.ofNat 8 n]

/-- A number in three bytes, high byte first. -/
def bytes3 (n : Nat) : List Byte := BitVec.ofNat 8 (n / 65536) :: bytes2 n

/-- A set of routes in six bytes: route `r` at bit `r mod 8` of byte `r / 8`. -/
def bytesRoutes (s : RouteSet) : List Byte :=
  [s.extractLsb' 0 8, s.extractLsb' 8 8, s.extractLsb' 16 8, s.extractLsb' 24 8, s.extractLsb' 32 8,
    s.extractLsb' 40 8]

/-- An optional part: a presence byte, and the part's bytes when it is 1. -/
def bytesOpt {α : Type} (f : α → List Byte) : Option α → List Byte
  | none => [0]
  | some a => 1 :: f a

/-- A flag byte: 1 for set, 0 for not. -/
def bytesBool (b : Bool) : List Byte := [if b then 1 else 0]

/-! ### Reading parameters

Each reader takes the bytes that are left and answers a value with the bytes after it, or none where the shape does
not fit (R180, check 3). -/

def read1 : List Byte → Option (Nat × List Byte)
  | b :: t => some (b.toNat, t)
  | [] => none

def read2 : List Byte → Option (Nat × List Byte)
  | b :: c :: t => some (b.toNat * 256 + c.toNat, t)
  | _ => none

/-- A presence byte other than 0 or 1 does not fit (R180). -/
def readOpt {α : Type} (f : List Byte → Option (α × List Byte)) : List Byte → Option (Option α × List Byte)
  | [] => none
  | b :: t =>
    if b = 0 then some (none, t)
    else if b = 1 then
      match f t with
      | some (a, t') => some (some a, t')
      | none => none
    else none

/-- The presence byte of a part that has no bytes of its own (the start flag of SET_CLOCK). -/
def readFlag : List Byte → Option (Bool × List Byte)
  | [] => none
  | b :: t => if b = 0 then some (false, t) else if b = 1 then some (true, t) else none

def readRoutes : List Byte → Option (RouteSet × List Byte)
  | b0 :: b1 :: b2 :: b3 :: b4 :: b5 :: t => some (b5 ++ b4 ++ b3 ++ b2 ++ b1 ++ b0, t)
  | _ => none

/-- A set in one byte, refused where a bit beyond its `n` members is set (R180). -/
def readSet (n : Nat) : List Byte → Option (BitVec n × List Byte)
  | b :: t => if b.toNat < 2 ^ n then some (BitVec.ofNat n b.toNat, t) else none
  | [] => none

/-- A label: one byte holding the character count, then that many characters (Table 11-8). -/
def readLabel : List Byte → Option (List Nat × List Byte)
  | [] => none
  | n :: t => if n.toNat ≤ t.length then some ((t.take n.toNat).map BitVec.toNat, t.drop n.toNat) else none

/-- A barred range: 0 for none, or 1 and the two ends (Table 11-8). -/
def readBarred : List Byte → Option (Option (Nat × Nat) × List Byte)
  | [] => none
  | b :: t =>
    if b = 0 then some (none, t)
    else if b = 1 then
      match t with
      | f :: l :: t' => some (some (f.toNat, l.toNat), t')
      | _ => none
    else none

/-- A request whose parameters leave bytes over does not fit (R180). -/
def whole {α : Type} (a : α) : List Byte → Option α
  | [] => some a
  | _ :: _ => none

def readDef (ps : List Byte) : Option (RouteDef × List Byte) := do
  let (label, t) ← readOpt readLabel ps
  let (pulse, t) ← read1 t
  let (spacing, t) ← read1 t
  let (len, t) ← read2 t
  let (shots, t) ← read1 t
  let (index, t) ← read2 t
  let (dead, t) ← read2 t
  let (width, t) ← read1 t
  let (tLoss, t) ← read2 t
  let (tTotal, t) ← read2 t
  let (tEnd, t) ← read1 t
  let (tReflect, t) ← read2 t
  let (floor, t) ← read2 t
  let (confirm, t) ← read1 t
  some ({ label, pulse, spacing, len, shots, index, dead, width, tLoss, tTotal, tEnd, tReflect, floor, confirm }, t)

def readWindowDef (ps : List Byte) : Option (WindowDef × List Byte) := do
  let (enabled, t) ← read1 ps
  let (hour, t) ← read1 t
  let (minute, t) ← read1 t
  let (factors, t) ← readSet 3 t
  let (weekdays, t) ← readSet 7 t
  let (duration, t) ← read2 t
  let (routes, t) ← readRoutes t
  some ({ enabled, hour, minute, factors, weekdays, duration, routes }, t)

def readNoticeParts (ps : List Byte) : Option (NoticeParts × List Byte) := do
  let (faultMode, t) ← readOpt read1 ps
  let (done, t) ← readOpt read1 t
  let (window, t) ← readOpt read1 t
  let (equip, t) ← readOpt read1 t
  let (log, t) ← readOpt read1 t
  let (clearMode, t) ← readOpt read1 t
  let (lineMode, t) ← readOpt read1 t
  let (polarity, t) ← readOpt read1 t
  let (pulseLen, t) ← readOpt read1 t
  let (threshold, t) ← readOpt read1 t
  some ({ faultMode, done, window, equip, log, clearMode, lineMode, polarity, pulseLen, threshold }, t)

def readDeviceParts (ps : List Byte) : Option (DeviceParts × List Byte) := do
  let (live, t) ← readOpt read2 ps
  let (timeout, t) ← readOpt read1 t
  let (barred, t) ← readOpt readBarred t
  some ({ live, timeout, barred }, t)

/-- The routes, the marks and the flags byte of an ACK_NOTICES (R163, Table 11-8). -/
def readAck (ps : List Byte) : Option (AckParts × List Byte) := do
  let (routes, t) ← readRoutes ps
  let (marks, t) ← readSet 4 t
  let (flags, t) ← readSet 4 t
  some ({ routes, marks, done := flags.getLsbD 0, window := flags.getLsbD 1, equip := flags.getLsbD 2,
          log := flags.getLsbD 3 }, t)

/-- The request that code `code` (Table 11-1) with parameters `ps` spells: none where the code is not in the table or
the parameters do not fit it (R180, checks 1 and 3). -/
def parseRequest (code : Nat) (ps : List Byte) : Option Request :=
  match code with
  | 0x01 => do let (r, t) ← read1 ps; let (k, t) ← read1 t; let (c, t) ← read1 t; whole (.test r k c) t
  | 0x02 => do let (id, t) ← read2 ps; whole (.cancel id) t
  | 0x03 => whole .mark ps
  | 0x04 => do let (n, t) ← read1 ps; whole (.readQueue n) t
  | 0x05 => do let (r, t) ← read1 ps; let (v, t) ← read2 t; let (d, t) ← readDef t; whole (.defineRoute r v d) t
  | 0x06 => do let (r, t) ← read1 ps; let (v, t) ← read2 t; whole (.deleteRoute r v) t
  | 0x07 => do let (r, t) ← read1 ps; whole (.readRoute r) t
  | 0x08 => do let (r, t) ← read1 ps; let (n, t) ← readOpt read1 t; whole (.readResult r n) t
  | 0x09 => do let (a, t) ← read2 ps; let (o, t) ← read2 t; let (n, t) ← read1 t; whole (.readTrace a o n) t
  | 0x0A => do
      let (r, t) ← read1 ps; let (o, t) ← read2 t; let (n, t) ← read1 t
      let (e, t) ← readOpt read2 t; whole (.readBaseline r o n e) t
  | 0x0B => do let (r, t) ← read1 ps; whole (.hold r) t
  | 0x0C => do let (r, t) ← read1 ps; whole (.release r) t
  | 0x0D => do let (r, t) ← read1 ps; whole (.clearHolds r) t
  | 0x0E => do let (w, t) ← read1 ps; let (d, t) ← readWindowDef t; whole (.setWindow w d) t
  | 0x0F => do let (w, t) ← read1 ps; whole (.readWindow w) t
  | 0x10 => do
      let (d, t) ← read2 ps; let (h, t) ← read1 t; let (m, t) ← read1 t
      let (s, t) ← readFlag t; whole (.setClock d h m s) t
  | 0x11 => whole .startClock ps
  | 0x12 => whole .stopClock ps
  | 0x13 => whole .readClock ps
  | 0x14 => do let (p, t) ← readNoticeParts ps; whole (.setNotices p) t
  | 0x15 => whole .readNotices ps
  | 0x16 => do let (a, t) ← readAck ps; whole (.ackNotices a) t
  | 0x17 => whole .readLog ps
  | 0x18 => do let (p, t) ← readDeviceParts ps; whole (.setDevice p) t
  | 0x19 => whole .readDevice ps
  | 0x1A => whole .readEquipment ps
  | 0x1B => whole .clearEquipment ps
  | 0x1C => whole .reset ps
  | _ => none

/-! ### Writing a request -/

/-- The request's code (Table 11-1). -/
def Request.code : Request → Nat
  | .test .. => 0x01
  | .cancel .. => 0x02
  | .mark => 0x03
  | .readQueue .. => 0x04
  | .defineRoute .. => 0x05
  | .deleteRoute .. => 0x06
  | .readRoute .. => 0x07
  | .readResult .. => 0x08
  | .readTrace .. => 0x09
  | .readBaseline .. => 0x0A
  | .hold .. => 0x0B
  | .release .. => 0x0C
  | .clearHolds .. => 0x0D
  | .setWindow .. => 0x0E
  | .readWindow .. => 0x0F
  | .setClock .. => 0x10
  | .startClock => 0x11
  | .stopClock => 0x12
  | .readClock => 0x13
  | .setNotices .. => 0x14
  | .readNotices => 0x15
  | .ackNotices .. => 0x16
  | .readLog => 0x17
  | .setDevice .. => 0x18
  | .readDevice => 0x19
  | .readEquipment => 0x1A
  | .clearEquipment => 0x1B
  | .reset => 0x1C

def bytesLabel (cs : List Nat) : List Byte := BitVec.ofNat 8 cs.length :: cs.map (BitVec.ofNat 8)

def bytesBarred : Option (Nat × Nat) → List Byte
  | none => [0]
  | some (a, b) => [1, BitVec.ofNat 8 a, BitVec.ofNat 8 b]

/-- A notice flags byte: DONE at bit 0, WINDOW at bit 1, EQUIP at bit 2, LOG at bit 3 (Table 11-8). -/
def flagsByte (done window equip log : Bool) : Byte :=
  BitVec.ofNat 8 (done.toNat + 2 * window.toNat + 4 * equip.toNat + 8 * log.toNat)

def bytesDef (d : RouteDef) : List Byte :=
  bytesOpt bytesLabel d.label ++ bytes1 d.pulse ++ bytes1 d.spacing ++ bytes2 d.len ++ bytes1 d.shots
    ++ bytes2 d.index ++ bytes2 d.dead ++ bytes1 d.width ++ bytes2 d.tLoss ++ bytes2 d.tTotal ++ bytes1 d.tEnd
    ++ bytes2 d.tReflect ++ bytes2 d.floor ++ bytes1 d.confirm

def bytesWindowDef (d : WindowDef) : List Byte :=
  bytes1 d.enabled ++ bytes1 d.hour ++ bytes1 d.minute ++ [d.factors.setWidth 8] ++ [d.weekdays.setWidth 8]
    ++ bytes2 d.duration ++ bytesRoutes d.routes

def bytesNoticeParts (p : NoticeParts) : List Byte :=
  bytesOpt bytes1 p.faultMode ++ bytesOpt bytes1 p.done ++ bytesOpt bytes1 p.window ++ bytesOpt bytes1 p.equip
    ++ bytesOpt bytes1 p.log ++ bytesOpt bytes1 p.clearMode ++ bytesOpt bytes1 p.lineMode
    ++ bytesOpt bytes1 p.polarity ++ bytesOpt bytes1 p.pulseLen ++ bytesOpt bytes1 p.threshold

def bytesDeviceParts (p : DeviceParts) : List Byte :=
  bytesOpt bytes2 p.live ++ bytesOpt bytes1 p.timeout ++ bytesOpt bytesBarred p.barred

def bytesAck (a : AckParts) : List Byte :=
  bytesRoutes a.routes ++ [a.marks.setWidth 8, flagsByte a.done a.window a.equip a.log]

/-- The parameter bytes of a request (R184: the fields its rule names, in the order named). -/
def Request.params : Request → List Byte
  | .test route kind cls => bytes1 route ++ bytes1 kind ++ bytes1 cls
  | .cancel id => bytes2 id
  | .readQueue start => bytes1 start
  | .defineRoute route rev d => bytes1 route ++ bytes2 rev ++ bytesDef d
  | .deleteRoute route rev => bytes1 route ++ bytes2 rev
  | .readRoute route => bytes1 route
  | .readResult route first => bytes1 route ++ bytesOpt bytes1 first
  | .readTrace acq offset count => bytes2 acq ++ bytes2 offset ++ bytes1 count
  | .readBaseline route offset count expected =>
      bytes1 route ++ bytes2 offset ++ bytes1 count ++ bytesOpt bytes2 expected
  | .hold route => bytes1 route
  | .release route => bytes1 route
  | .clearHolds route => bytes1 route
  | .setWindow w d => bytes1 w ++ bytesWindowDef d
  | .readWindow w => bytes1 w
  | .setClock day hour minute start => bytes2 day ++ bytes1 hour ++ bytes1 minute ++ bytesBool start
  | .setNotices p => bytesNoticeParts p
  | .ackNotices a => bytesAck a
  | .setDevice p => bytesDeviceParts p
  | .mark | .startClock | .stopClock | .readClock | .readNotices | .readLog | .readDevice | .readEquipment
  | .clearEquipment | .reset => []

/-! ### Frames and their check -/

/-- One step of the check register: x^16 + x^12 + x^5 + 1, most significant bit first (R178). -/
def crcBit (r : BitVec 16) : BitVec 16 := if r.msb then (r <<< 1) ^^^ 0x1021#16 else r <<< 1

/-- One byte fed into the check register, most significant bit first (R178). -/
def crcByte (r : BitVec 16) (b : Byte) : BitVec 16 := crcBit^[8] (r ^^^ (b.setWidth 16 <<< 8))

/-- The 16-bit check over the length byte and the body: the register starts at all ones and is not inverted at the
end (R178). -/
def frameCheck (bs : List Byte) : BitVec 16 := bs.foldl crcByte 0xFFFF#16

/-- A frame: sync, length, body, check high byte first (Tables 11-3 and 11-4). -/
def frameBytes (body : List Byte) : List Byte :=
  let n := BitVec.ofNat 8 body.length
  let k := frameCheck (n :: body)
  0xA5 :: n :: (body ++ [k.extractLsb' 8 8, k.extractLsb' 0 8])

/-- The body of a request frame: the tag, the request code and the parameters (Table 11-3). -/
def Request.body (tag : Byte) (r : Request) : List Byte := tag :: BitVec.ofNat 8 r.code :: r.params

/-- The frame by which a client sends request `r` with tag `tag`. -/
def Request.frame (tag : Byte) (r : Request) : List Byte := frameBytes (r.body tag)

end Sys2Proof
end

