-- ==== Sys2Proof/Machine/State.lean ====
section
/-! DEFINITION. The state of the Jastrel 4800, block by block (Table 0-2), its reset value, and the reasons a step can stop.
Every field is plain data. What the manual retains (R84, R97, R136, R157, R23) has one home here: by R84 each accepted
change is in the retained store by the time its reply is sent, and every step is whole, so the live value and the retained
value never differ between steps (assumption 2). -/

namespace Sys2Proof.Machine

/-! ### Names of the manual -/

/-- A reading of the module clock (Table 8-1). -/
structure Time where
  day : Nat
  hour : Nat
  minute : Nat
  second : Nat
deriving DecidableEq, Repr

/-- Day 0, 00:00:00. -/
def Time.zero : Time := { day := 0, hour := 0, minute := 0, second := 0 }

inductive TestKind where
  | check | capture
deriving DecidableEq, Repr

inductive TestClass where
  | urgent | routine
deriving DecidableEq, Repr

/-- The outcomes of Table 1-3 and the Test Queue's own two. -/
inductive TestOutcome where
  | judged | noBaseline | captured | noFibre | storeFull | liveLight | switchStuck | acqTimeout | laserFault
  | storeError | cancelled | routeDeleted
deriving DecidableEq, Repr

inductive Condition where
  | unknown | clear | degraded | bend | broken
deriving DecidableEq, Repr

inductive BreakKind where
  | near | reflective | nonReflective
deriving DecidableEq, Repr

inductive CloseCause where
  | expired | edited | clockStopped
deriving DecidableEq, Repr

inductive EquipKind where
  | switchStuck | homeFailed | acqTimeout | laserFault | storeWriteFail
deriving DecidableEq, Repr

inductive ResetKind where
  | powerOn | shelfReset | craftReset
deriving DecidableEq, Repr

inductive ClockChange where
  | set | started | stopped
deriving DecidableEq, Repr

inductive RouteChange where
  | defined | deleted
deriving DecidableEq, Repr

inductive FaultMode where
  | off | raise | clear | both
deriving DecidableEq, Repr

inductive ClearMode where
  | onRead | onAck
deriving DecidableEq, Repr

inductive LineMode where
  | level | pulse
deriving DecidableEq, Repr

inductive Polarity where
  | activeLow | activeHigh
deriving DecidableEq, Repr

inductive RouteStatus where
  | unused | defined | baselined
deriving DecidableEq, Repr

/-- One value for each of the four clients. -/
structure PerClient (α : Type) where
  scA : α
  scB : α
  ls : α
  cr : α
deriving DecidableEq, Repr

def PerClient.const {α : Type} (a : α) : PerClient α := { scA := a, scB := a, ls := a, cr := a }

/-! ### The optical path (chapter 1) -/

inductive SwitchTarget where
  | home | port (p : RouteNo)
deriving DecidableEq, Repr

/-- The Port Switch's position (R1); `unknown` from POWER-ON until the engine first commands the switch. -/
inductive SwitchPos where
  | unknown | standing (t : SwitchTarget) | moving (t : SwitchTarget)
deriving DecidableEq, Repr

/-- The front end's latest live-check record (R3). -/
structure LiveRecord where
  level : Nat
  route : RouteNo
  acq : Nat
deriving DecidableEq, Repr

/-- The Optical Front End: the laser, a live check under way, the latest live-check record (R2, R3), and whether a
laser fault stands (R19). -/
structure FrontEnd where
  laser : Bool
  checking : Bool
  record : Option LiveRecord
  fault : Bool
deriving DecidableEq, Repr

/-- The acquisition settings of a route (Table 4-1). -/
structure AcqSettings where
  pulse : Nat
  spacing : Nat
  len : Nat
  shots : Nat
  index : Nat
deriving DecidableEq, Repr

/-- The judging settings of a route (Table 4-1). -/
structure Judging where
  dead : Nat
  width : Nat
  tLoss : Nat
  tTotal : Nat
  tEnd : Nat
  tReflect : Nat
  floor : Nat
  confirm : Nat
deriving DecidableEq, Repr

/-- Table 1-1. -/
inductive EngineState where
  | idle | switching | liveCheck | firing | analysing | committing | recovering | faulted
deriving DecidableEq, Repr

/-- The timer that runs, with the length it was started with for the switch timer (Table 1-2). -/
inductive EngineTimer where
  | switch (ms : Nat) | liveCheck | shot
deriving DecidableEq, Repr

/-- The running entry as the engine records it at the take, with the copied acquisition settings (R6). -/
structure Running where
  id : Nat
  route : RouteNo
  kind : TestKind
  cls : TestClass
  settings : AcqSettings
deriving DecidableEq, Repr

/-- One position of the accumulator: its sum, and whether it is in the saturation set (R11). -/
structure AccCell where
  sum : Nat
  sat : Bool
deriving DecidableEq, Repr

/-- The baseline an analysis notes at its start (R25, R95). -/
structure BaseRef where
  blocks : List Nat
  eb : Nat
  acq : Nat
deriving DecidableEq, Repr

/-- What the Trace Processor copies at the start of ANALYSING (R25). -/
structure AnalysisCopy where
  judging : Judging
  base : Option BaseRef
deriving DecidableEq, Repr

/-- The fields of a test record that a test has when it reached analysis (Table 3-1). -/
structure AnalysisFields where
  dzEff : Nat
  width : Nat
  em : Nat
  dEm : Nat
  satCount : Nat
  firstSat : Option Nat
deriving DecidableEq, Repr

/-- The analysis fields held with the running entry until a capture finishes (R56). -/
structure HeldAnalysis where
  fields : AnalysisFields
  time : Time
deriving DecidableEq, Repr

/-- The Acquisition Engine (section 1.2), with the Trace Processor's working copies. -/
structure Engine where
  state : EngineState
  running : Option Running
  acq : Nat
  shotCount : Nat
  acc : List AccCell
  timer : Option EngineTimer
  marker : Bool
  analysis : Option AnalysisCopy
  held : Option HeldAnalysis
deriving DecidableEq, Repr

/-- The Equipment Record while it is valid (Table 1-4); overrun is yes exactly when `latest` is present. -/
structure EquipError where
  kind : EquipKind
  route : Option RouteNo
  time : Time
  latest : Option EquipKind
deriving DecidableEq, Repr

/-- The three device settings (Table 1-5, R80). -/
structure Device where
  live : Nat
  timeout : Nat
  barred : Option (Nat × Nat)
deriving DecidableEq, Repr

/-! ### The trace buffer and the test records (chapters 2 and 3) -/

/-- The labels known when ANALYSING starts (R37). -/
structure TraceLabels where
  acq : Nat
  route : RouteNo
  kind : TestKind
  settings : AcqSettings
deriving DecidableEq, Repr

/-- One position of the trace: its level and its saturation mark (R36, R39). -/
structure TraceCell where
  level : Nat
  sat : Bool
deriving DecidableEq, Repr

/-- The trace buffer (Table 2-5). -/
inductive TraceBuffer where
  | empty
  | filling (labels : TraceLabels) (sat : List Bool)
  | held (labels : TraceLabels) (dzEff em : Nat) (cells : List TraceCell)
deriving DecidableEq, Repr

/-- A loss event (R49). -/
structure LossEvent where
  index : Nat
  distance : Nat
  loss : Nat
deriving DecidableEq, Repr

/-- A break: its kind and distance (R45, R46). -/
structure Break where
  kind : BreakKind
  distance : Nat
deriving DecidableEq, Repr

/-- The findings of a JUDGED test (Table 3-1). -/
structure Judgement where
  cond : Condition
  brk : Option Break
  events : List LossEvent
  more : Bool
  longer : Bool
  excess : Option Int
deriving DecidableEq, Repr

/-- A route's test record (Table 3-1). -/
structure TestRecord where
  id : Nat
  acq : Nat
  kind : TestKind
  cls : TestClass
  time : Time
  outcome : TestOutcome
  len : Nat
  fields : Option AnalysisFields
  judgement : Option Judgement
deriving DecidableEq, Repr

/-! ### The Route Table (chapter 4) -/

/-- A route's baseline (Table 4-1). -/
structure Baseline where
  blocks : List Nat
  eb : Nat
  time : Time
  acq : Nat
deriving DecidableEq, Repr

/-- What a DEFINED or BASELINED route has (R62). -/
structure RouteBody where
  label : Option (List Nat)
  acq : AcqSettings
  judging : Judging
  baseline : Option Baseline
deriving DecidableEq, Repr

/-- A route entry: an UNUSED one keeps only its revision and its hold set (R62). -/
structure RouteEntry where
  revision : Nat
  holds : HoldSet
  body : Option RouteBody
deriving DecidableEq, Repr

/-- An entry of a retained store that has never been written (R84). -/
def RouteEntry.fresh : RouteEntry := { revision := 0, holds := 0, body := none }

/-! ### The Baseline Store (chapter 5) -/

/-- Table 5-2: HELD, or WRITING with `w` blocks written good and the write of the next one in flight, which carries
`data`. -/
inductive ReservePhase where
  | held | writing (w : Nat) (data : List Nat)
deriving DecidableEq, Repr

structure Reservation where
  route : RouteNo
  acq : Nat
  blocks : List Nat
  phase : ReservePhase
deriving DecidableEq, Repr

/-- The contents of the blocks: block number and its 1,024 levels, block numbers strictly rising, no block listed that
holds 1,024 zeros (what an unlisted block reads as). -/
abbrev BlockMem := List (Nat × List Nat)

/-- The Baseline Store: the free pool and the bad set in increasing block number, the reservation and the blocks'
contents. The routes' block lists stand in the route entries. -/
structure Store where
  free : List Nat
  bad : List Nat
  resv : Option Reservation
  mem : BlockMem
deriving DecidableEq, Repr

/-! ### The Test Queue (chapter 6) -/

/-- A test entry (Table 6-1): RUNNING exactly when it holds an acquisition number. -/
structure Entry where
  id : Nat
  route : RouteNo
  kind : TestKind
  cls : TestClass
  reqs : RequesterSet
  running : Option Nat
deriving DecidableEq, Repr

/-- An open mark: its number and its wait set of request ids (R122). -/
structure Mark where
  number : Nat
  wait : List Nat
deriving DecidableEq, Repr

/-- The Test Queue: the entries in queue order, the request-id counter, and each client's open marks in increasing
number. -/
structure Queue where
  entries : List Entry
  counter : Nat
  marks : PerClient (List Mark)
deriving DecidableEq, Repr

/-! ### The Condition Tracker (chapter 7) -/

/-- The test that set a condition (Table 7-1). -/
structure Adopting where
  id : Option Nat
  kind : TestKind
  acq : Nat
deriving DecidableEq, Repr

/-- The loss events of a fault record, with MORE_EVENTS (Table 7-1). -/
structure EventList where
  events : List LossEvent
  more : Bool
deriving DecidableEq, Repr

/-- A route's fault record (Table 7-1). -/
structure FaultRecord where
  cond : Condition
  time : Time
  adopting : Option Adopting
  latest : Option Nat
  agreeing : Nat
  brk : Option Break
  events : Option EventList
  excess : Option Int
deriving DecidableEq, Repr

/-- The record that says UNKNOWN since `t` (R134, R136). -/
def FaultRecord.unknownAt (t : Time) : FaultRecord :=
  { cond := .unknown, time := t, adopting := none, latest := none, agreeing := 0, brk := none, events := none,
    excess := none }

/-- A route's candidate (Table 7-2). -/
structure Candidate where
  cond : Condition
  agree : Nat
deriving DecidableEq, Repr

/-! ### The Timekeeping Unit (chapter 8) -/

structure Clock where
  now : Time
  running : Bool
deriving DecidableEq, Repr

/-- The settings of a quiet window (Table 8-2). -/
structure WindowSettings where
  enabled : Bool
  hour : Nat
  minute : Nat
  factors : FactorSet
  weekdays : WeekdaySet
  duration : Nat
  routes : RouteSet
deriving DecidableEq, Repr

/-- A quiet window: OPEN exactly when it has remaining minutes (Table 8-2). -/
structure Window where
  settings : WindowSettings
  remaining : Option Nat
deriving DecidableEq, Repr

/-- A window of a retained store that has never been written (R157). -/
def Window.fresh : Window :=
  { settings := { enabled := false, hour := 0, minute := 0, factors := 0, weekdays := 0, duration := 60, routes := 0 },
    remaining := none }

/-! ### The Notice Unit (chapter 9) -/

/-- Table 9-1. -/
structure NoticeSettings where
  faultMode : FaultMode
  done : Bool
  window : Bool
  equip : Bool
  log : Bool
  clearMode : ClearMode
  lineMode : LineMode
  polarity : Polarity
  pulseLen : Nat
deriving DecidableEq, Repr

def NoticeSettings.default : NoticeSettings :=
  { faultMode := .both, done := true, window := false, equip := true, log := false, clearMode := .onAck,
    lineMode := .level, polarity := .activeLow, pulseLen := 10 }

/-- Table 9-2. -/
structure Pending where
  faults : RouteSet
  done : Bool
  window : Bool
  marks : MarkSet
  equip : Bool
  log : Bool
deriving DecidableEq, Repr

def Pending.none : Pending :=
  { faults := 0, done := false, window := false, marks := 0, equip := false, log := false }

/-- One client's notices: settings, pending notices, its attention line, and its pulse timer with the length it was
last started with. -/
structure NoticeState where
  settings : NoticeSettings
  pending : Pending
  asserted : Bool
  pulse : Option Nat
deriving DecidableEq, Repr

def NoticeState.reset : NoticeState :=
  { settings := NoticeSettings.default, pending := Pending.none, asserted := false, pulse := Option.none }

/-! ### The Result Log (chapter 10) -/

/-- The kind of a log entry with the fields Table 10-2 gives it. -/
inductive LogBody where
  | reset (kind : ResetKind)
  | testDone (route : RouteNo) (id : Nat) (kind : TestKind) (outcome : TestOutcome) (reqs : RequesterSet)
      (client : Option Client)
  | faultChange (route : RouteNo) (cond : Condition) (test : Option (Nat × TestKind)) (client : Option Client)
  | windowOpen (w : WindowNo)
  | windowClose (w : WindowNo) (cause : CloseCause)
  | routeChange (route : RouteNo) (client : Client) (change : RouteChange)
  | holdChange (route : RouteNo) (client : Client) (holds : HoldSet)
  | clock (client : Client) (change : ClockChange)
  | equipment (kind : EquipKind) (route : Option RouteNo)
deriving DecidableEq, Repr

structure LogEntry where
  number : Nat
  time : Time
  body : LogBody
deriving DecidableEq, Repr

/-- One client's cursor, overrun flag and log threshold (R169, R173). -/
structure LogReader where
  cursor : Nat
  overrun : Bool
  threshold : Nat
deriving DecidableEq, Repr

def LogReader.reset : LogReader := { cursor := 0, overrun := false, threshold := 64 }

/-- The ring, oldest entry first, the number of the next entry, and the readers. -/
structure ResultLog where
  ring : List LogEntry
  next : Nat
  readers : PerClient LogReader
deriving DecidableEq, Repr

/-! ### Replies (chapter 11) -/

/-- Table 11-2. -/
inductive Status where
  | ok | okClamped | busy | notPermitted | badRequest | badValue | noRoute | stale | held | barred | queueFull
  | routeBusy | notRequester | notHeld | clockRunning | marksFull | noEntry
deriving DecidableEq, Repr

inductive TestWord where
  | new | joined
deriving DecidableEq, Repr

inductive CancelWord where
  | kept | removed
deriving DecidableEq, Repr

/-- R109, R124. -/
inductive Eligibility where
  | eligible | held | barred | noWindow
deriving DecidableEq, Repr

/-- One entry of a READ_QUEUE reply: a RUNNING entry carries its acquisition number, a WAITING one its
eligibility (R124). -/
structure QueueRow where
  position : Nat
  id : Nat
  route : RouteNo
  kind : TestKind
  cls : TestClass
  reqs : RequesterSet
  standing : Nat ⊕ Eligibility
deriving DecidableEq, Repr

/-- The baseline part of a READ_ROUTE reply (R76). -/
structure BaselineView where
  blocks : Nat
  eb : Nat
  dEb : Nat
  time : Time
  acq : Nat
deriving DecidableEq, Repr

/-- The settings part of a READ_ROUTE reply (R76). -/
structure RouteView where
  label : Option (List Nat)
  acq : AcqSettings
  judging : Judging
  span : Nat
  dzEff : Nat
  baseline : Option BaselineView
deriving DecidableEq, Repr

/-- The pool summary of a READ_BASELINE reply (R99): the reservation's route, and the written count when WRITING. -/
structure PoolSummary where
  free : Nat
  bad : Nat
  resvSize : Nat
  resv : Option (RouteNo × Option Nat)
deriving DecidableEq, Repr

/-- The baseline fields of an OK or STALE READ_BASELINE reply (R99). -/
structure BaselineHead where
  revision : Nat
  len : Nat
  eb : Nat
  time : Time
  acq : Nat
  blocks : Nat
deriving DecidableEq, Repr

/-- The fault part of a READ_RESULT reply (R137). -/
structure FaultPart where
  record : FaultRecord
  candidate : Option Candidate
  confirm : Nat
deriving DecidableEq, Repr

/-- The data of a reply, by request (the fields its owner's rule names). The clock reading of SET_CLOCK, START_CLOCK,
STOP_CLOCK and READ_WINDOW is the day, hour, minute and second; that the weekday of R144 is no part of it is the model's
choice (assumption 34). -/
inductive ReplyData where
  | none
  | test (id : Nat) (word : TestWord) (position : Nat)
  | testHeld (holds : HoldSet) (barred : Bool)
  | testBarred (range : Option (Nat × Nat))
  | cancel (reqs : RequesterSet) (word : CancelWord)
  | mark (number ids : Nat)
  | queue (count : Nat) (engine : EngineState) (rows : List QueueRow) (marks : List (Nat × Nat))
  | field (code : Nat)
  | revision (rev : Nat)
  | clamped (fields : List (Nat × Nat)) (rev : Nat)
  | route (route : RouteNo) (status : RouteStatus) (rev : Nat) (holds : HoldSet) (barred running : Bool)
      (view : Option RouteView)
  | holds (holds : HoldSet)
  | window (settings : WindowSettings) (remaining : Option Nat)
  | windowRead (settings : WindowSettings) (remaining : Option Nat) (now : Time) (running : Bool) (covered : RouteSet)
  | clock (now : Time)
  | clockRun (now : Time) (running : Bool)
  | clockRead (now : Time) (weekday : Nat) (running : Bool)
  | noticeSettings (settings : NoticeSettings) (threshold : Nat)
  | pending (pending : Pending) (mode : ClearMode)
  | log (overrun : Bool) (entries : List LogEntry) (unread oldest newest : Nat)
  | device (device : Device) (record : Option LiveRecord)
  | equipment (error : Option EquipError) (engine : EngineState) (acq : Nat) (position : SwitchPos)
  | result (first : Nat) (record : Option TestRecord) (fault : FaultPart)
  | trace (labels : TraceLabels) (dzEff em satCount : Nat) (firstSat : Option Nat) (offset : Nat)
      (cells : List TraceCell)
  | traceStale (acq : Option Nat)
  | baseline (pool : PoolSummary) (head : BaselineHead) (offset : Nat) (levels : List Nat)
  | baselineStale (pool : PoolSummary) (head : BaselineHead)
  | baselineNone (rev : Nat) (pool : PoolSummary)
deriving DecidableEq, Repr

structure Reply where
  tag : Byte
  status : Status
  data : ReplyData
deriving DecidableEq, Repr

/-! ### The Link Interface (chapter 11) -/

/-- The receive assembly (R177). In `body` the length and the bytes so far, in `check` the body and the first check
byte. The gap timer runs exactly outside `hunt`. -/
inductive Assembly where
  | hunt
  | length
  | body (n : Nat) (got : List Byte)
  | check (body : List Byte) (high : Option Byte)
deriving DecidableEq, Repr

/-- The request in service on a link: its tag and its code. -/
structure Service where
  tag : Byte
  code : Nat
deriving DecidableEq, Repr

/-- One link: the assembly, the request in service, and the replies owed in order, the first of them being sent
(R176, R179). -/
structure Link where
  rx : Assembly
  service : Option Service
  owed : List Reply
deriving DecidableEq, Repr

def Link.reset : Link := { rx := .hunt, service := none, owed := [] }

/-! ### The machine -/

/-- The whole card. `shelf` is present while the shelf reset line is active, with the kind of reset that its release
ends. `craftArmed` says that the OK reply to a RESET is still owed. `freeCount` is the MODEL's own: the number of free
values used so far. `pending` is the commands that wait, first in first out. -/
structure State where
  switch : SwitchPos
  front : FrontEnd
  engine : Engine
  equip : Option EquipError
  device : Device
  trace : TraceBuffer
  records : Vector (Option TestRecord) 48
  routes : Vector RouteEntry 48
  store : Store
  queue : Queue
  faults : Vector FaultRecord 48
  cands : Vector (Option Candidate) 48
  clock : Clock
  windows : Vector Window 8
  notices : PerClient NoticeState
  log : ResultLog
  links : PerClient Link
  shelf : Option ResetKind
  craftArmed : Bool
  freeCount : Nat
  pending : List Instr
deriving DecidableEq, Repr

/-- The 4800 has no fault stop: every failure it detects is an outcome, a status or an equipment error, which are
next states. Closed and empty. -/
inductive Fault where
deriving DecidableEq, Repr

/-- Why the model gives a command no meaning. -/
inductive Refusal where
  /-- Raised by `exec` for a command whose meaning is not written. Safe: the model stops. -/
  | notModelled (mnemonic : String)
  /-- Raised by SHOT_COMPLETE for a record taken in FIRING whose length is not L: R2 says that the front end delivers
  L samples, so no card does this. Safe: the model stops. -/
  | recordLength
deriving DecidableEq, Repr

/-- The engine at the start of a reset: RECOVERING, with nothing commanded yet (R24). The shot count, to which R24 gives no
value, is 0: the model's choice (assumption 37). -/
def Engine.waiting : Engine :=
  { state := .recovering, running := none, acq := 0, shotCount := 0, acc := [], timer := none, marker := false,
    analysis := none, held := none }

/-- The defaults of Table 1-5 and R84. -/
def Device.default : Device := { live := 600, timeout := 2, barred := none }

def Queue.empty : Queue := { entries := [], counter := 1, marks := PerClient.const [] }

/-- The machine right after POWER-ON, the shelf reset line not active, with a retained store that has never been
written: the engine homes the switch under the default switch timeout (R24), the log holds the RESET entry (R175), the
clock stands STOPPED at zero (R157), all 1,024 blocks are free (R97). -/
def State.reset : State where
  switch := .moving .home
  front := { laser := false, checking := false, record := none, fault := false }
  engine := { Engine.waiting with timer := some (.switch 200) }
  equip := none
  device := Device.default
  trace := .empty
  records := Vector.replicate 48 none
  routes := Vector.replicate 48 RouteEntry.fresh
  store := { free := List.range 1024, bad := [], resv := none, mem := [] }
  queue := Queue.empty
  faults := Vector.replicate 48 (FaultRecord.unknownAt Time.zero)
  cands := Vector.replicate 48 none
  clock := { now := Time.zero, running := false }
  windows := Vector.replicate 8 Window.fresh
  notices := PerClient.const NoticeState.reset
  log := { ring := [{ number := 0, time := Time.zero, body := .reset .powerOn }], next := 1,
           readers := PerClient.const LogReader.reset }
  links := PerClient.const Link.reset
  shelf := none
  craftArmed := false
  freeCount := 0
  pending := []

end Sys2Proof.Machine
end

