-- ==== Sys2Proof/Machine/Operands.lean ====
section
/-! DEFINITION. Operand forms: sets written as bits, values held per client, the codes of Table 11-8, and the ranges and
clamps of Table 4-1. -/

namespace Sys2Proof.Machine

/-! ### Sets -/

/-- Membership in a set written as bits. -/
def has {n : Nat} (s : BitVec n) (i : Nat) : Bool := s.getLsbD i

def add {n : Nat} (s : BitVec n) (i : Nat) : BitVec n := s ||| BitVec.twoPow n i

def del {n : Nat} (s : BitVec n) (i : Nat) : BitVec n := s &&& ~~~BitVec.twoPow n i

/-- The members in increasing order. -/
def members {n : Nat} (s : BitVec n) : List Nat := (List.range n).filter (has s)

/-! ### Clients -/

/-- A client's bit in a set of clients (R184). -/
def bitOf : Client → Nat
  | .scA => 0
  | .scB => 1
  | .ls => 2
  | .cr => 3

/-- The bit of the requester CONFIRM (R184). -/
def confirmBit : Nat := 4

def perGet {α : Type} (p : PerClient α) : Client → α
  | .scA => p.scA
  | .scB => p.scB
  | .ls => p.ls
  | .cr => p.cr

def perSet {α : Type} (p : PerClient α) (c : Client) (a : α) : PerClient α :=
  match c with
  | .scA => { p with scA := a }
  | .scB => { p with scB := a }
  | .ls => { p with ls := a }
  | .cr => { p with cr := a }

/-- The value `f` gives for each client. -/
def perGen {α : Type} (f : Client → α) : PerClient α := { scA := f .scA, scB := f .scB, ls := f .ls, cr := f .cr }

/-- `f` applied to each entry of a table. -/
def mapTable {α β : Type} {n : Nat} (f : α → β) (v : Vector α n) : Vector β n := ⟨⟨v.toList.map f⟩, by simp⟩

/-! ### Codes (Table 11-8) -/

def routeOf (n : Nat) : Option RouteNo := if h : n < 48 then some ⟨n, h⟩ else none

def windowOf (n : Nat) : Option WindowNo := if h : n < 8 then some ⟨n, h⟩ else none

def kindOf : Nat → Option TestKind
  | 1 => some .check
  | 2 => some .capture
  | _ => none

def classOf : Nat → Option TestClass
  | 1 => some .urgent
  | 2 => some .routine
  | _ => none

/-- On or off, yes or no. -/
def flagOf : Nat → Option Bool
  | 0 => some false
  | 1 => some true
  | _ => none

def faultModeOf : Nat → Option FaultMode
  | 1 => some .off
  | 2 => some .raise
  | 3 => some .clear
  | 4 => some .both
  | _ => none

def clearModeOf : Nat → Option ClearMode
  | 1 => some .onRead
  | 2 => some .onAck
  | _ => none

def lineModeOf : Nat → Option LineMode
  | 1 => some .level
  | 2 => some .pulse
  | _ => none

def polarityOf : Nat → Option Polarity
  | 1 => some .activeLow
  | 2 => some .activeHigh
  | _ => none

/-- A number in 1..255 (pulse length, log threshold). -/
def positiveByteOf (n : Nat) : Option Nat := if 1 ≤ n ∧ n ≤ 255 then some n else none

/-- A part of a request that keeps `cur` when absent and is refused when `f` refuses it. -/
def partOf {α : Type} (f : Nat → Option α) (cur : α) : Option Nat → Option α
  | none => some cur
  | some n => f n

/-! ### The settings of Table 4-1 -/

/-- Pulse width in nanoseconds (Table 4-1). -/
def pulseNs : Nat → Nat
  | 0 => 10
  | 1 => 30
  | 2 => 100
  | 3 => 300
  | 4 => 1000
  | _ => 3000

/-- Nominal spacing in centimetres (Table 4-1). -/
def spacingCm : Nat → Nat
  | 0 => 25
  | 1 => 50
  | 2 => 100
  | 3 => 200
  | _ => 400

/-- The switch timeout in milliseconds (Table 1-5). -/
def timeoutMs : Nat → Nat
  | 0 => 50
  | 1 => 100
  | 2 => 200
  | 3 => 500
  | _ => 1000

/-- The number of shots, N = 2^k. -/
def shotTarget (a : AcqSettings) : Nat := 2 ^ a.shots

/-- The pulse span in samples, rounded up (R31). -/
def pulseSpan (pulse spacing : Nat) : Nat := (pulseNs pulse * 20 + (spacingCm spacing - 1)) / spacingCm spacing

/-- The effective dead zone: the larger of the route's dead zone and the pulse span (R31). -/
def deadZone (a : AcqSettings) (dead : Nat) : Nat := max dead (pulseSpan a.pulse a.spacing)

/-- The range a value is brought into (R66). -/
def clamp (lo hi n : Nat) : Nat := max lo (min hi n)

/-- The label a definition leaves: one of 0 characters is none (R62). -/
def storedLabel : Option (List Nat) → Option (List Nat)
  | some (c :: cs) => some (c :: cs)
  | _ => none

def acqOf (d : RouteDef) : AcqSettings :=
  { pulse := d.pulse, spacing := d.spacing, len := d.len, shots := d.shots, index := d.index }

/-- The judging settings of a definition, clamped (R66). -/
def judgingOf (d : RouteDef) : Judging :=
  { dead := d.dead
    width := clamp 1 32 d.width
    tLoss := clamp 5 1000 d.tLoss
    tTotal := clamp 10 3000 d.tTotal
    tEnd := clamp 1 255 d.tEnd
    tReflect := clamp 50 2000 d.tReflect
    floor := clamp 0 1000 d.floor
    confirm := clamp 1 4 d.confirm }

/-- The clamped fields of a definition, by code, with the value stored (R66). -/
def clampedFields (d : RouteDef) : List (Nat × Nat) :=
  let j := judgingOf d
  [(8, d.width, j.width), (9, d.tLoss, j.tLoss), (10, d.tTotal, j.tTotal), (11, d.tEnd, j.tEnd),
   (12, d.tReflect, j.tReflect), (13, d.floor, j.floor), (14, d.confirm, j.confirm)].filterMap
    fun (code, sent, stored) => if sent = stored then none else some (code, stored)

/-- At most 16 characters, each 0x20..0x7E (R65). -/
def labelRefused : Option (List Nat) → Bool
  | none => false
  | some cs => decide (16 < cs.length) || cs.any fun ch => decide (ch < 0x20) || decide (0x7E < ch)

/-- The code of the first refused field in the order of Table 4-1 (R65). -/
def refusedField (d : RouteDef) : Option Nat :=
  if labelRefused d.label then some 1
  else if 5 < d.pulse then some 2
  else if 4 < d.spacing then some 3
  else if d.len < 1024 ∨ 32768 < d.len ∨ d.len % 1024 ≠ 0 then some 4
  else if d.shots < 4 ∨ 16 < d.shots then some 5
  else if d.index < 14000 ∨ 15500 < d.index then some 6
  else if 1023 < d.dead then some 7
  else none

/-- A barred range that may be set: none, or first ≤ last ≤ 47 (R80). -/
def barredValid : Option (Nat × Nat) → Bool
  | none => true
  | some (first, last) => decide (first ≤ last) && decide (last ≤ 47)

/-- The settings a SET_WINDOW stores, with a duration above 720 clamped (R151): none where a value is refused. -/
def windowSettingsOf (d : WindowDef) : Option WindowSettings :=
  match flagOf d.enabled with
  | none => none
  | some enabled =>
    if 31 < d.hour ∨ 63 < d.minute ∨ d.duration = 0 then none
    else some { enabled, hour := d.hour, minute := d.minute, factors := d.factors, weekdays := d.weekdays,
                duration := min 720 d.duration, routes := d.routes }

/-- The notice settings after a SET_NOTICES, or none where a part is refused (R160). -/
def noticeSettingsOf (p : NoticeParts) (cur : NoticeSettings) : Option NoticeSettings := do
  let faultMode ← partOf faultModeOf cur.faultMode p.faultMode
  let done ← partOf flagOf cur.done p.done
  let window ← partOf flagOf cur.window p.window
  let equip ← partOf flagOf cur.equip p.equip
  let log ← partOf flagOf cur.log p.log
  let clearMode ← partOf clearModeOf cur.clearMode p.clearMode
  let lineMode ← partOf lineModeOf cur.lineMode p.lineMode
  let polarity ← partOf polarityOf cur.polarity p.polarity
  let pulseLen ← partOf positiveByteOf cur.pulseLen p.pulseLen
  some { faultMode, done, window, equip, log, clearMode, lineMode, polarity, pulseLen }

/-- The device settings after a SET_DEVICE, or none where a part is refused (R23, R80). -/
def deviceOf (p : DeviceParts) (cur : Device) : Option Device :=
  if p.live.any (fun n => decide (3610 < n)) || p.timeout.any (fun n => decide (4 < n))
      || !barredValid (p.barred.getD none) then none
  else some { live := p.live.getD cur.live, timeout := p.timeout.getD cur.timeout,
              barred := p.barred.getD cur.barred }

end Sys2Proof.Machine
end

