-- ==== Sys2Proof/Machine/Arith.lean ====
section
/-! DEFINITION. The Trace Processor's arithmetic: stages 1 to 4 of an analysis (chapter 2) and stages 5 and 6
(chapter 3). All of it is exact on whole numbers. -/

namespace Sys2Proof.Machine

/-! ### Firing and stages 1 and 2 -/

/-- A shot record added into the accumulator, position by position (R11). -/
def addShot (acc : List AccCell) (samples : List Sample) : List AccCell :=
  List.zipWith (fun (c : AccCell) (x : Sample) =>
    { sum := c.sum + x.toNat, sat := c.sat || x.toNat == 65535 }) acc samples

/-- The averaged value of a sum over `n` shots: 256 times the mean, rounded half up (R26). -/
def average (n sum : Nat) : Nat := (256 * sum + n / 2) / n

/-- The level of an averaged value (R28): the octave `e`, the 64th `m` within it, and their count of 150.515/64 units
rounded half up. -/
def levelOf (a : Nat) : Nat :=
  if a = 0 then 0
  else
    let e := a.log2
    let m := 64 * (a - 2 ^ e) / 2 ^ e
    ((64 * e + m) * 150515 + 32000) / 64000

/-- Stages 1 and 2 over the whole accumulator (R26 to R28). -/
def traceCells (n : Nat) (acc : List AccCell) : List TraceCell :=
  acc.map fun c => { level := levelOf (average n c.sum), sat := c.sat }

/-- The positions of a saturation set, in increasing order (R27). -/
def satPositions (cells : List TraceCell) : List Nat :=
  (cells.zipIdx.filter fun p => p.1.sat).map Prod.snd

/-! ### Stage 3: the measured end -/

/-- The first index at or after `i` from which `w` levels in a row stand at or below the floor `f`, in the levels `ms`
from index `i` on (R32). -/
def endFrom (w f : Nat) : Nat → List Nat → Option Nat
  | _, [] => none
  | i, m :: ms =>
    if ((m :: ms).take w).length = w ∧ ((m :: ms).take w).all (fun x => decide (x ≤ f)) then some i
    else endFrom w f (i + 1) ms

/-- The measured end Em of a trace past the effective dead zone: its length when no end is found (R32). -/
def measuredEnd (dz w f : Nat) (levels : List Nat) : Nat :=
  (endFrom w f dz (levels.drop dz)).getD levels.length

/-! ### Stage 4: distance -/

/-- D(i) in centimetres for a spacing code and a group index (R34). -/
def distance (spacing index i : Nat) : Nat := (i * spacingCm spacing * 14680 + index / 2) / index

/-! ### Stage 5: the comparison -/

/-- The difference at one position, zeroed where the fresh trace is saturated or the baseline level is 3610 (R44). -/
def difference (c : TraceCell) (b : Nat) : Int :=
  if c.sat || b == 3610 then 0 else (b : Int) - (c.level : Int)

/-- The differences over the compared range `dz .. c - 1` (R44). -/
def differences (dz c : Nat) (cells : List TraceCell) (base : List Nat) : List Int :=
  List.zipWith difference ((cells.take c).drop dz) ((base.take c).drop dz)

/-- The kind of a break at `em` (R46). -/
def breakKind (dz w em tReflect : Nat) (levels : List Nat) : BreakKind :=
  if em < dz + w + 1 then .near
  else
    let p := ((levels.take em).drop (em - w)).foldl max 0
    let r := levels.getD (em - w - 1) 0
    if r + tReflect ≤ p then .reflective else .nonReflective

/-- The step sums S(i) of the differences `ds`, the first of which is at index `i - w`, each with its index (R48). -/
def stepSums (w : Nat) : Nat → List Int → List (Nat × Int)
  | _, [] => []
  | i, d :: ds =>
    if ((d :: ds).take (2 * w)).length = 2 * w then
      (i, (((d :: ds).drop w).take w).sum - ((d :: ds).take w).sum) :: stepSums w (i + 1) ds
    else []

/-- The peak (index and step sum) of each run of step sums at or above the bar; `cur` is the peak of a run still open.
A tie goes to the earliest index (R49). -/
def runPeaks (bar : Int) : Option (Nat × Int) → List (Nat × Int) → List (Nat × Int)
  | cur, [] => cur.toList
  | cur, (i, s) :: rest =>
    if bar ≤ s then
      match cur with
      | none => runPeaks bar (some (i, s)) rest
      | some (j, t) => runPeaks bar (some (if t < s then (i, s) else (j, t))) rest
    else cur.toList ++ runPeaks bar none rest

/-- The loss event of a run's peak (R49). -/
def lossEvent (a : AcqSettings) (w : Nat) (p : Nat × Int) : LossEvent :=
  { index := p.1, distance := distance a.spacing a.index p.1, loss := ((p.2 + (w / 2 : Nat)) / (w : Int)).toNat }

/-- The excess: the mean of the last `w` differences, rounded toward minus infinity (R51). -/
def excessOf (w : Nat) (ds : List Int) : Int := (ds.drop (ds.length - w)).sum / (w : Int)

/-- Stages 5 and 6 for a CHECK with a baseline: levels `base`, end `eb` (R42 to R52). -/
def judge (a : AcqSettings) (j : Judging) (dz em : Nat) (cells : List TraceCell) (base : List Nat) (eb : Nat) :
    Judgement :=
  let w := j.width
  let c := min em eb
  let brk : Option Break :=
    if em + j.tEnd < eb then
      some { kind := breakKind dz w em j.tReflect (cells.map TraceCell.level), distance := distance a.spacing a.index em }
    else none
  let longer := decide (eb + j.tEnd < em)
  let search := decide (dz + 2 * w ≤ c)
  let ds := differences dz c cells base
  let peaks := if search then runPeaks ((w * j.tLoss : Nat) : Int) none (stepSums w (dz + w) ds) else []
  let excess := if search then some (excessOf w ds) else none
  let cond : Condition :=
    if brk.isSome then .broken
    else if peaks ≠ [] then .bend
    else if excess.any (fun x => decide ((j.tTotal : Int) ≤ x)) then .degraded
    else .clear
  { cond, brk, events := (peaks.take 16).map (lossEvent a w), more := decide (16 < peaks.length), longer, excess }

/-- The analysis fields of a test record (R31, R32, R27, R34). -/
def analysisFields (a : AcqSettings) (j : Judging) (cells : List TraceCell) : AnalysisFields :=
  let dz := deadZone a j.dead
  let em := measuredEnd dz j.width j.floor (cells.map TraceCell.level)
  let sat := satPositions cells
  { dzEff := dz, width := j.width, em, dEm := distance a.spacing a.index em, satCount := sat.length,
    firstSat := sat.head? }

end Sys2Proof.Machine
end

