-- ==== Sys2Proof/Machine/Flags.lean ====
section
/-! DEFINITION. The pending notices and the attention lines (chapter 9), the overrun flags and the Result Log's writes
(chapter 10). -/

namespace Sys2Proof.Machine

/-! ### Raises (R161) -/

/-- A raise for one client. A FAULT raise says whether the change was a raise (`up`) or a clear. -/
inductive Notice where
  | fault (route : RouteNo) (up : Bool)
  | done
  | window
  | mark (number : Nat)
  | equip
  | log
deriving DecidableEq, Repr

/-- Whether the client's switch for the kind takes the raise (R161). -/
def takesRaise (n : NoticeSettings) : Notice → Bool
  | .fault _ up =>
    match n.faultMode with
    | .off => false
    | .raise => up
    | .clear => !up
    | .both => true
  | .done => n.done
  | .window => n.window
  | .mark _ => true
  | .equip => n.equip
  | .log => n.log

/-- Whether the kind of the raise is pending (section 9.2). -/
def kindPending (p : Pending) : Notice → Bool
  | .fault _ _ => p.faults != 0
  | .done => p.done
  | .window => p.window
  | .mark _ => p.marks != 0
  | .equip => p.equip
  | .log => p.log

/-- The item a taken raise sets (R161). -/
def setItem (p : Pending) : Notice → Pending
  | .fault r _ => { p with faults := add p.faults r }
  | .done => { p with done := true }
  | .window => { p with window := true }
  | .mark m => { p with marks := add p.marks m }
  | .equip => { p with equip := true }
  | .log => { p with log := true }

/-- Whether the client has a pending notice (section 9.2). -/
def anyPending (p : Pending) : Bool := p.faults != 0 || p.done || p.window || p.marks != 0 || p.equip || p.log

/-- A raise taken by one client's notices: the item is set; in LEVEL mode the line is asserted (R165); in PULSE mode a
rise asserts it and starts the pulse timer afresh (R166). -/
def raiseNotice (k : Notice) (n : NoticeState) : NoticeState :=
  if takesRaise n.settings k then
    match n.settings.lineMode with
    | .level => { n with pending := setItem n.pending k, asserted := true }
    | .pulse =>
      if kindPending n.pending k then { n with pending := setItem n.pending k }
      else { n with pending := setItem n.pending k, asserted := true, pulse := some n.settings.pulseLen }
  else n

/-- The line after a read or an acknowledge has left `p` pending: LEVEL follows the pending notices (R165), a pulse runs
on (R166). -/
def clearTo (p : Pending) (n : NoticeState) : NoticeState :=
  match n.settings.lineMode with
  | .level => { n with pending := p, asserted := anyPending p }
  | .pulse => { n with pending := p }

/-- The electrical level of the attention line, `true` for high (R165). -/
def lineHigh (n : NoticeState) : Bool :=
  match n.settings.polarity with
  | .activeLow => !n.asserted
  | .activeHigh => n.asserted

/-- A change of the settings applied to the line at once (R167). -/
def applySettings (new : NoticeSettings) (n : NoticeState) : NoticeState :=
  match n.settings.lineMode, new.lineMode with
  | .level, .pulse => { n with settings := new, asserted := false, pulse := none }
  | .pulse, .level => { n with settings := new, asserted := anyPending n.pending, pulse := none }
  | _, _ => { n with settings := new }

/-- The expiry of the pulse timer: the line is deasserted (R166). No expiry comes where no pulse runs. -/
def endPulse (n : NoticeState) : NoticeState :=
  match n.pulse with
  | none => n
  | some _ => { n with asserted := false, pulse := none }

/-- The raise `k` to every client `p` names. -/
def raiseTo (p : Client → Bool) (k : Notice) (s : State) : State :=
  { s with notices := perGen fun c => if p c then raiseNotice k (perGet s.notices c) else perGet s.notices c }

def raiseAll (k : Notice) (s : State) : State := raiseTo (fun _ => true) k s

/-! ### The Result Log -/

/-- A client's unread count (section 10.2). -/
def unreadCount (l : ResultLog) (r : LogReader) : Nat := (l.next + 65536 - r.cursor) % 65536

/-- The entry number of the oldest entry in the ring. -/
def oldestNumber (l : ResultLog) : Nat := (l.next + 65536 - l.ring.length) % 65536

/-- The entry number of the newest entry in the ring. -/
def newestNumber (l : ResultLog) : Nat := (l.next + 65535) % 65536

/-- The reader after a write: one whose cursor holds the number of an overwritten entry moves on and is flagged
(R171). -/
def readerAfterWrite (l : ResultLog) (r : LogReader) : LogReader :=
  if 256 ≤ l.ring.length ∧ r.cursor = oldestNumber l then
    { r with cursor := (r.cursor + 1) % 65536, overrun := true }
  else r

/-- The log after one write at time `t` (R169). -/
def logAfterWrite (t : Time) (b : LogBody) (l : ResultLog) : ResultLog :=
  { ring := (if 256 ≤ l.ring.length then l.ring.drop 1 else l.ring) ++ [{ number := l.next, time := t, body := b }]
    next := (l.next + 1) % 65536
    readers := perGen fun c => readerAfterWrite l (perGet l.readers c) }

/-- Whether a write raises the client's unread count from one below its threshold to its threshold (R173). -/
def reachesThreshold (l : ResultLog) (c : Client) : Bool :=
  let r := perGet l.readers c
  !decide (256 ≤ l.ring.length ∧ r.cursor = oldestNumber l) && decide (unreadCount l r + 1 = r.threshold)

/-- One write to the Result Log, stamped with the module clock, and the LOG raises it makes (R169, R171, R173). -/
def logWrite (b : LogBody) (s : State) : State :=
  raiseTo (reachesThreshold s.log) .log { s with log := logAfterWrite s.clock.now b s.log }

def logWrites (bs : List LogBody) (s : State) : State := bs.foldl (fun s b => logWrite b s) s

end Sys2Proof.Machine
end

