-- ==== Sys2Proof/Config.lean ====
section
/-! DEFINITION. The values the manual leaves open. None has a body, so nothing can be proved of any of them: a
claim that holds holds whatever they are. -/

namespace Sys2Proof.Config

/-- The position a NEW or JOINED reply to TEST carries when the entry has already left the queue before the reply
is formed (its take ended STORE_FULL, R7, R106): R102 gives a position only to an entry that stands in the queue.
The argument is a fresh number from `State.freeCount`. DESIGN CHOICE (assumption 5). -/
opaque gonePosition : Nat → Byte

/-- The code of a window's state in the replies to SET_WINDOW and READ_WINDOW (`true` for OPEN): Table 11-8 lists
no code for it. DESIGN CHOICE (assumption 6). -/
opaque windowStateCode : Bool → Byte

/-- The level found at a place of a block after a write of the block that failed (R92), or after a write that power
loss cut off (R97): the manual says neither. The arguments are a fresh number from `State.freeCount` and the
place. No request can reach such a level. DESIGN CHOICE (assumption 7). -/
opaque spoiltLevel : Nat → Nat → Fin 3611

end Sys2Proof.Config
end

