-- ==== Sys2Proof/Machine/Store.lean ====
section
/-! DEFINITION. The Baseline Store: the block contents, the free pool, the bad set and the reservation (chapter 5). -/

namespace Sys2Proof.Machine

/-! ### Block contents -/

/-- What a block that nothing has written reads as: DESIGN CHOICE (assumption 4). No request can read one. -/
def blankBlock : List Nat := List.replicate 1024 0

/-- The 1,024 levels of a block. -/
def readBlock : BlockMem → Nat → List Nat
  | [], _ => blankBlock
  | (k, ls) :: rest, b => if k = b then ls else readBlock rest b

/-- The contents with block `b` removed. -/
def eraseBlock (b : Nat) (m : BlockMem) : BlockMem := m.filter fun p => p.1 != b

/-- The contents with block `b` placed in order. -/
def insertBlock (b : Nat) (ls : List Nat) : BlockMem → BlockMem
  | [] => [(b, ls)]
  | (k, x) :: rest => if b < k then (b, ls) :: (k, x) :: rest else (k, x) :: insertBlock b ls rest

/-- One block written whole; the canonical form is kept. -/
def writeBlock (b : Nat) (ls : List Nat) (m : BlockMem) : BlockMem :=
  if ls = blankBlock then eraseBlock b m else insertBlock b ls (eraseBlock b m)

/-- The canonical form: block numbers strictly rising, below 1,024, and no blank block listed. -/
def blockMemWf (m : BlockMem) : Bool :=
  decide (m.Pairwise fun p q => p.1 < q.1) && m.all fun p => decide (p.1 < 1024) && decide (p.2 ≠ blankBlock)

/-- The levels of a block list in index order (R42, R88). -/
def listLevels (m : BlockMem) (blocks : List Nat) : List Nat := blocks.flatMap (readBlock m)

/-- What a block holds after a write of it that did not complete good: free values (assumption 7). -/
def spoiltBlock (k : Nat) : List Nat := (List.range 1024).map fun i => (Config.spoiltLevel k i).val

/-! ### Places of the blocks -/

/-- A block number put into a set kept in increasing order; one already there stays single. -/
def insertNumber (b : Nat) : List Nat → List Nat
  | [] => [b]
  | k :: rest => if b < k then b :: k :: rest else if b = k then k :: rest else k :: insertNumber b rest

/-- Blocks given back to the free pool (R86). -/
def giveBack (bs free : List Nat) : List Nat := bs.foldl (fun acc b => insertNumber b acc) free

def withFree (f : List Nat → List Nat) (s : State) : State := { s with store := { s.store with free := f s.store.free } }

def freeBlocks (bs : List Nat) (s : State) : State := withFree (giveBack bs) s

/-- A reservation that is HELD returns whole to the free pool (R93); one with a write in flight stays (R96). -/
def returnReservation (s : State) : State :=
  match s.store.resv with
  | some r =>
    match r.phase with
    | .held => { s with store := { s.store with free := giveBack r.blocks s.store.free, resv := none } }
    | .writing _ _ => s
  | none => s

/-- The reservation of `n` blocks, the lowest-numbered free ones (R86, R87): none when the pool is short. -/
def reserve (r : RouteNo) (acq n : Nat) (s : State) : Option State :=
  if n ≤ s.store.free.length then
    some { s with store := { s.store with
      free := s.store.free.drop n
      resv := some { route := r, acq, blocks := s.store.free.take n, phase := .held } } }
  else none

/-- The block of a reservation whose write is in flight, when one is. -/
def writingBlock (r : Reservation) : Option (Nat × Nat × List Nat) :=
  match r.phase with
  | .held => none
  | .writing w data => some (w, r.blocks.getD w 0, data)

/-- A write is in flight (Table 5-2). -/
def writeInFlight (s : State) : Bool := (s.store.resv.bind writingBlock).isSome

/-- The write in flight is one that a reset cut off from its capture: the engine is no longer in COMMITTING, and the
reset's wait for the write goes on (R24, R96). -/
def writeCutOff (s : State) : Bool := writeInFlight s && decide (s.engine.state ≠ .committing)

/-- The block lists of all routes together. -/
def listedBlocks (s : State) : List Nat :=
  s.routes.toList.flatMap fun e => match e.body.bind RouteBody.baseline with
    | some b => b.blocks
    | none => []

/-- The free pool rebuilt at POWER-ON (R97). -/
def rebuiltPool (s : State) : List Nat :=
  (List.range 1024).filter fun b => !(listedBlocks s).contains b && !s.store.bad.contains b

end Sys2Proof.Machine
end

