-- ==== Sys2Proof/Machine/Ops.lean ====
section
/-! DEFINITION. The operations the commands share: routes and coverage, the Equipment Record, the switch, the Test Queue with
its hand-out, stops and merges, the Condition Tracker, the finish of a test, the clock and the windows, and the resets. -/

namespace Sys2Proof.Machine

/-! ### Routes, holds, the barred range, coverage -/

def routeStatus (e : RouteEntry) : RouteStatus :=
  match e.body with
  | none => .unused
  | some b => if b.baseline.isSome then .baselined else .defined

def inBarred (range : Option (Nat × Nat)) (r : RouteNo) : Bool :=
  match range with
  | none => false
  | some (first, last) => decide (first ≤ r.val) && decide (r.val ≤ last)

def isHeld (s : State) (r : RouteNo) : Bool := s.routes[r].holds != 0

def isBarred (s : State) (r : RouteNo) : Bool := inBarred s.device.barred r

/-- A route is closed to testing while it is held or barred (R82). -/
def isClosed (s : State) (r : RouteNo) : Bool := isHeld s r || isBarred s r

/-- A route is covered while some OPEN window's route set contains it (R150). -/
def isCovered (s : State) (r : RouteNo) : Bool :=
  s.windows.toList.any fun w => w.remaining.isSome && has w.settings.routes r

/-- The set of routes covered by all open windows together (R155). -/
def coveredRoutes (s : State) : RouteSet :=
  s.windows.toList.foldl (fun acc w => if w.remaining.isSome then acc ||| w.settings.routes else acc) 0

/-- Whether the class may run on the route now: open to testing and, for ROUTINE, covered (R109). -/
def mayRun (s : State) (r : RouteNo) (c : TestClass) : Bool := !isClosed s r && (c == .urgent || isCovered s r)

/-- Why an entry is eligible or not, for READ_QUEUE (R109). -/
def eligibilityOf (s : State) (e : Entry) : Eligibility :=
  if isHeld s e.route then .held
  else if isBarred s e.route then .barred
  else if e.cls == .routine && !isCovered s e.route then .noWindow
  else .eligible

def isWaiting (e : Entry) : Bool := e.running.isNone

/-- A WAITING entry that may be given the port (R109). -/
def isEligible (s : State) (e : Entry) : Bool := isWaiting e && mayRun s e.route e.cls

def setRoute (r : RouteNo) (e : RouteEntry) (s : State) : State := { s with routes := s.routes.set r e }

def setRecord (r : RouteNo) (t : Option TestRecord) (s : State) : State := { s with records := s.records.set r t }

def setFault (r : RouteNo) (f : FaultRecord) (s : State) : State := { s with faults := s.faults.set r f }

def setCand (r : RouteNo) (c : Option Candidate) (s : State) : State := { s with cands := s.cands.set r c }

def setEntries (es : List Entry) (s : State) : State := { s with queue := { s.queue with entries := es } }

/-! ### The Equipment Record (R21) -/

def equipError (k : EquipKind) (r : Option RouteNo) (s : State) : State :=
  raiseAll .equip (logWrite (.equipment k r) { s with equip := match s.equip with
    | none => some { kind := k, route := r, time := s.clock.now, latest := none }
    | some e => some { e with latest := some k } })

/-! ### Leaving the queue (R119, R120, R118, R123) -/

/-- The numbers of the marks whose wait set is exactly emptied by the loss of `id`, in increasing number. -/
def completedMarks (id : Nat) (ms : List Mark) : List Nat :=
  (ms.filter fun m => (m.wait.filter (· != id)).isEmpty).map Mark.number

/-- The marks that stay open after the loss of `id`. -/
def keptMarks (id : Nat) (ms : List Mark) : List Mark :=
  (ms.map fun m => { m with wait := m.wait.filter (· != id) }).filter fun m => !m.wait.isEmpty

/-- `id` leaves the wait sets of client `c`; the marks left empty complete, in the order of their numbers (R123). -/
def dropFromMarks (c : Client) (id : Nat) (s : State) : State :=
  let ms := perGet s.queue.marks c
  (completedMarks id ms).foldl (fun s m => raiseTo (· == c) (.mark m) s)
    { s with queue := { s.queue with marks := perSet s.queue.marks c (keptMarks id ms) } }

def dropFromAllMarks (id : Nat) (s : State) : State :=
  dropFromMarks .cr id (dropFromMarks .ls id (dropFromMarks .scB id (dropFromMarks .scA id s)))

def removeEntry (id : Nat) (s : State) : State := setEntries (s.queue.entries.filter fun e => e.id != id) s

/-- An entry leaves the queue with an outcome: the entry goes, TEST_DONE is logged with the requester set `reqs`, DONE is
raised to the clients of that set, and the marks lose the id (R119). -/
def leaveQueue (e : Entry) (out : TestOutcome) (reqs : RequesterSet) (by_ : Option Client) (s : State) : State :=
  dropFromAllMarks e.id
    (raiseTo (fun c => has reqs (bitOf c)) .done
      (logWrite (.testDone e.route e.id e.kind out reqs by_) (removeEntry e.id s)))

/-! ### The take and the hand-out (R6, R7, R110) -/

/-- A command to the switch (R1): the position after it. -/
def commandedTo (t : SwitchTarget) (p : SwitchPos) : SwitchPos := if p = .standing t then p else .moving t

/-- The engine enters LIVE_CHECK and the front end begins to integrate (R8). -/
def startLiveCheck (s : State) : State :=
  { s with
    front := { s.front with checking := true }
    engine := { s.engine with state := .liveCheck, timer := some .liveCheck } }

/-- The switch is sent to the route's port and the engine enters SWITCHING; where the switch already stands there its
settled event comes at once (R1, R6, R8). -/
def startSwitching (r : RouteNo) (s : State) : State :=
  let s' : State := { s with
    switch := commandedTo (.port r) s.switch
    engine := { s.engine with state := .switching, shotCount := 0, timer := some (.switch (timeoutMs s.device.timeout)) } }
  if s.switch = .standing (.port r) then startLiveCheck s' else s'

/-- The record of a test that finishes without reaching analysis (R57). -/
def shortRecord (run : Running) (acq : Nat) (out : TestOutcome) (t : Time) : TestRecord :=
  { id := run.id, acq, kind := run.kind, cls := run.cls, time := t, outcome := out, len := run.settings.len,
    fields := none, judgement := none }

/-- The entry is RUNNING under the next acquisition number, and the engine records it with the acquisition settings that
stand (R5, R6). -/
def taken (e : Entry) (b : RouteBody) (s : State) : State :=
  let acq := (s.engine.acq + 1) % 65536
  let run : Running := { id := e.id, route := e.route, kind := e.kind, cls := e.cls, settings := b.acq }
  setEntries (s.queue.entries.map fun x => if x.id = e.id then { x with running := some acq } else x)
    { s with engine := { s.engine with acq, running := some run } }

/-- A capture that finds the pool short finishes STORE_FULL within the take: the acquisition number is used, its record is
written and it leaves the queue (R7, R57). -/
def takeShort (e : Entry) (b : RouteBody) (s : State) : State :=
  let acq := (s.engine.acq + 1) % 65536
  let run : Running := { id := e.id, route := e.route, kind := e.kind, cls := e.cls, settings := b.acq }
  leaveQueue e .storeFull e.reqs none
    (setRecord e.route (some (shortRecord run acq .storeFull s.clock.now)) { s with engine := { s.engine with acq } })

/-- The engine takes a WAITING entry of a defined route; a capture reserves its blocks first (R6, R7). -/
def takeEntry (e : Entry) (s : State) : State :=
  match s.routes[e.route].body with
  | none => s
  | some b =>
    match e.kind with
    | .check => startSwitching e.route (taken e b s)
    | .capture =>
      match reserve e.route ((s.engine.acq + 1) % 65536) (b.acq.len / 1024) (taken e b s) with
      | some held => startSwitching e.route held
      | none => takeShort e b s

/-- The hand-out: while the engine is IDLE, the first eligible entry in queue order is taken, and again after a take that
ended STORE_FULL (R110). `n` bounds the takes; the length of the queue is enough. -/
def handOutLoop : Nat → State → State
  | 0, s => s
  | n + 1, s =>
    if s.engine.state = .idle then
      match s.queue.entries.find? (isEligible s) with
      | some e => handOutLoop n (takeEntry e s)
      | none => s
    else s

def handOut (s : State) : State := handOutLoop s.queue.entries.length s

/-! ### Stops (R17, R112 to R116) -/

/-- SWITCHING, LIVE_CHECK and FIRING, in which an acquisition can be stopped (R17). -/
def canStop : EngineState → Bool
  | .switching | .liveCheck | .firing => true
  | _ => false

/-- The engine with no running entry, in state `st`; the acquisition number stays (R5). The shot count, which the manual gives
no value outside an acquisition, is 0: the model's choice (assumption 37). -/
def Engine.freed (e : Engine) (st : EngineState) : Engine :=
  { state := st, running := none, acq := e.acq, shotCount := 0, acc := [], timer := none, marker := false,
    analysis := none, held := none }

/-- The laser off and a live check under way abandoned (R3, R4). -/
def frontOff (s : State) : State := { s with front := { s.front with laser := false, checking := false } }

/-- An acquisition ends on a stop order: the reservation is returned and the engine is IDLE (R17). -/
def stopAcquisition (s : State) : State :=
  let s' := returnReservation (frontOff s)
  { s' with engine := s'.engine.freed .idle }

def runningEntry (s : State) : Option Entry := s.queue.entries.find? fun e => e.running.isSome

/-- Whether the engine answers STOPPED to a stop order for the acquisition `acq` (R17). -/
def stopsFor (acq : Nat) (s : State) : Bool := canStop s.engine.state && s.engine.acq == acq

/-- The wait set of a mark after the entry `gone` is absorbed by `kept` (R113). -/
def absorbedWait (kept gone : Nat) (wait : List Nat) : List Nat :=
  if wait.contains kept then wait.filter (· != gone) else wait.map fun i => if i = gone then kept else i

/-- `a` absorbs `b` (R113). -/
def absorb (a b : Entry) (s : State) : State :=
  let a' : Entry := { a with reqs := a.reqs ||| b.reqs, cls := if b.cls = .urgent then .urgent else a.cls }
  let fix (ms : List Mark) : List Mark := ms.map fun m => { m with wait := absorbedWait a.id b.id m.wait }
  { s with queue := { s.queue with
    entries := (s.queue.entries.map fun x => if x.id = a.id then a' else x).filter fun x => x.id != b.id
    marks := perGen fun c => fix (perGet s.queue.marks c) } }

/-- Two WAITING entries of one route and kind merge; the one that stands earlier absorbs the other (R113). -/
def mergeTwins (r : RouteNo) (k : TestKind) (s : State) : State :=
  match s.queue.entries.filter fun e => isWaiting e && decide (e.route = r) && decide (e.kind = k) with
  | a :: b :: _ => absorb a b s
  | _ => s

/-- A stop order for the RUNNING entry: on STOPPED it waits again in its place and merges, on TOO_LATE nothing changes
(R112). -/
def stopRunning (s : State) : State :=
  match runningEntry s with
  | none => s
  | some e =>
    if stopsFor (e.running.getD 0) s then
      mergeTwins e.route e.kind
        (setEntries (s.queue.entries.map fun x => if x.id = e.id then { x with running := none } else x)
          (stopAcquisition s))
    else s

/-- An eligible URGENT entry exists (R114). -/
def urgentWaits (s : State) : Bool := s.queue.entries.any fun e => e.cls == .urgent && isEligible s e

/-- Preemption: an eligible URGENT entry stops a running ROUTINE one (R114). -/
def preempt (s : State) : State :=
  match runningEntry s with
  | some e => if e.cls = .routine ∧ urgentWaits s then stopRunning s else s
  | none => s

/-- The port goes to whom it belongs: preemption, then the hand-out (R111, R114). -/
def arbitrate (s : State) : State := handOut (preempt s)

/-- A coverage report: a running ROUTINE entry whose route no open window covers is stopped, and the hand-out is made
(R115, R149). -/
def coverageReport (s : State) : State :=
  handOut (match runningEntry s with
    | some e => if e.cls = .routine ∧ !isCovered s e.route then stopRunning s else s
    | none => s)

/-- A report of the Route Table: `wasClosed` says which routes were closed before the change. A running entry of a route
just closed is stopped, then the port is given (R82, R116). -/
def routeReport (wasClosed : RouteNo → Bool) (s : State) : State :=
  arbitrate (match runningEntry s with
    | some e => if isClosed s e.route && !wasClosed e.route then stopRunning s else s
    | none => s)

/-! ### Asking for a test (R105 to R107, R121) -/

/-- What the Test Queue answers to a TEST or to a confirmation request. -/
inductive TestAnswer where
  | noRoute | held | barred | full
  | placed (id : Nat) (word : TestWord)
deriving DecidableEq, Repr

def nextId (n : Nat) : Nat := if 65535 ≤ n then 1 else n + 1

/-- The first value from `n` on that no entry holds, within `k` tries (R104). -/
def freshId (es : List Entry) : Nat → Nat → Nat
  | 0, n => n
  | k + 1, n => if es.any (fun e => e.id == n) then freshId es k (nextId n) else n

/-- The last place of the entry's class (R102). -/
def placeEntry (e : Entry) (es : List Entry) : List Entry :=
  match e.cls with
  | .urgent => es.takeWhile (fun x => x.cls == .urgent) ++ e :: es.dropWhile (fun x => x.cls == .urgent)
  | .routine => es ++ [e]

/-- A request joins the WAITING entry `e` (R107). -/
def joinEntry (who : Nat) (cls : TestClass) (e : Entry) (s : State) : State :=
  let e' := { e with reqs := add e.reqs who }
  if cls = .urgent ∧ e.cls = .routine then
    arbitrate (setEntries (placeEntry { e' with cls := .urgent } (s.queue.entries.filter fun x => x.id != e.id)) s)
  else setEntries (s.queue.entries.map fun x => if x.id = e.id then e' else x) s

/-- A new entry, considered for the hand-out and, if URGENT, for preemption (R106). -/
def newEntry (id who : Nat) (r : RouteNo) (k : TestKind) (cls : TestClass) (s : State) : State :=
  let e : Entry := { id, route := r, kind := k, cls, reqs := add 0 who, running := none }
  let s' : State := { s with queue := { s.queue with entries := placeEntry e s.queue.entries, counter := nextId id } }
  if cls = .urgent then arbitrate s' else handOut s'

/-- The checks 2 to 6 of R105, for a client or for CONFIRM (R121); `who` is the requester's bit. -/
def askTest (who : Nat) (r : RouteNo) (k : TestKind) (cls : TestClass) (s : State) : TestAnswer × State :=
  if routeStatus s.routes[r] = .unused then (.noRoute, s)
  else if isHeld s r then (.held, s)
  else if isBarred s r then (.barred, s)
  else
    match s.queue.entries.find? fun e => isWaiting e && decide (e.route = r) && decide (e.kind = k) with
    | some e => (.placed e.id .joined, joinEntry who cls e s)
    | none =>
      if 32 ≤ s.queue.entries.length then (.full, s)
      else
        let id := freshId s.queue.entries 33 s.queue.counter
        (.placed id .new, newEntry id who r k cls s)

/-- The position of the entry `id`, 1.. from the front (R102). -/
def positionOf (id : Nat) (s : State) : Option Nat :=
  (s.queue.entries.findIdx? fun e => e.id == id).map (· + 1)

/-! ### The Condition Tracker (chapter 7) -/

/-- A change into DEGRADED, BEND or BREAK is a raise (R128). -/
def isRaise : Condition → Bool
  | .degraded | .bend | .broken => true
  | .unknown | .clear => false

/-- The report of a change of adopted condition (R128). -/
def reportChange (r : RouteNo) (c : Condition) (test : Option (Nat × TestKind)) (by_ : Option Client) (s : State) : State :=
  raiseAll (.fault r (isRaise c)) (logWrite (.faultChange r c test by_) s)

/-- The adopted condition goes to UNKNOWN on a request of `c`: the record is rewritten and the change reported, unless
it is UNKNOWN already; the candidate is cleared (R134, R135). -/
def setUnknown (r : RouteNo) (c : Client) (s : State) : State :=
  let s' := setCand r none s
  if s.faults[r].cond = .unknown then s'
  else reportChange r .unknown none (some c) (setFault r (FaultRecord.unknownAt s.clock.now) s')

/-- The finding of a JUDGED CHECK (R55). -/
structure Finding where
  route : RouteNo
  id : Nat
  acq : Nat
  cls : TestClass
  time : Time
  judgement : Judgement
deriving DecidableEq, Repr

/-- The record an agreeing finding leaves (R130). -/
def refreshed (f : Finding) (old : FaultRecord) : FaultRecord :=
  { old with
    agreeing := min 65535 (old.agreeing + 1)
    events := some { events := f.judgement.events, more := f.judgement.more }
    excess := f.judgement.excess
    latest := some f.acq }

/-- The record of an adopted finding (R131). -/
def adopted (f : Finding) : FaultRecord :=
  { cond := f.judgement.cond
    time := f.time
    adopting := some { id := some f.id, kind := .check, acq := f.acq }
    latest := some f.acq
    agreeing := 0
    brk := if f.judgement.cond = .broken then f.judgement.brk else none
    events := some { events := f.judgement.events, more := f.judgement.more }
    excess := f.judgement.excess }

/-- The agree count a differing finding reaches (R131). -/
def agreeAfter (c : Condition) : Option Candidate → Nat
  | some k => if k.cond = c then k.agree + 1 else 1
  | none => 1

/-- A finding taken by the tracker (R129 to R132). One for a route that is not BASELINED is discarded. -/
def takeFinding (f : Finding) (s : State) : State :=
  match s.routes[f.route].body with
  | none => s
  | some b =>
    if b.baseline.isNone then s
    else
      let c := f.judgement.cond
      let old := s.faults[f.route]
      if c = old.cond then setFault f.route (refreshed f old) (setCand f.route none s)
      else
        let n := agreeAfter c s.cands[f.route]
        if n = b.judging.confirm then
          reportChange f.route c (some (f.id, .check)) none (setFault f.route (adopted f) (setCand f.route none s))
        else (askTest confirmBit f.route .check f.cls (setCand f.route (some { cond := c, agree := n }) s)).2

/-- The record that a capture's commit writes (R133), with no request id when the repair of R136 writes it. -/
def capturedRecord (id : Option Nat) (t : Time) (acq : Nat) : FaultRecord :=
  { cond := .clear, time := t, adopting := some { id, kind := .capture, acq }, latest := some acq, agreeing := 0,
    brk := none, events := none, excess := none }

/-- The tracker takes a capture's commit (R133). -/
def captureClear (r : RouteNo) (id acq : Nat) (t : Time) (s : State) : State :=
  let s' := setFault r (capturedRecord (some id) t acq) (setCand r none s)
  if s.faults[r].cond = .clear then s' else reportChange r .clear (some (id, .capture)) none s'

/-! ### The finish of a running entry (R16, R56, R57, R119) -/

/-- The equipment error of a finish, where it has one. -/
def withError (err : Option EquipKind) (r : RouteNo) (s : State) : State :=
  match err with
  | some k => equipError k (some r) s
  | none => s

/-- The test record of a finish at time `t`: with the analysis fields and their time where the test reached analysis, and
the judgement of a JUDGED one (R56, R57). -/
def finishRecord (run : Running) (acq : Nat) (out : TestOutcome) (t : Time) (held : Option HeldAnalysis)
    (j : Option Judgement) : TestRecord :=
  match held with
  | none => shortRecord run acq out t
  | some h => { shortRecord run acq out h.time with fields := some h.fields, judgement := j }

/-- The finish report at the Test Queue (R119). -/
def reportFinish (id : Nat) (out : TestOutcome) (s : State) : State :=
  match s.queue.entries.find? (fun e => e.id == id) with
  | some e => leaveQueue e out e.reqs none s
  | none => s

/-- The finding of a JUDGED CHECK goes to the Condition Tracker (R55). -/
def giveFinding (run : Running) (acq : Nat) (held : Option HeldAnalysis) (j : Option Judgement) (s : State) : State :=
  match held, j with
  | some h, some jd => takeFinding { route := run.route, id := run.id, acq, cls := run.cls, time := h.time, judgement := jd } s
  | _, _ => s

/-- A finish up to, and not including, the engine's new state, in the order of R16: the reservation is returned and the
equipment error recorded, the test record written, the entry leaves the queue, and a JUDGED finding goes to the
tracker. -/
def finishEntry (out : TestOutcome) (err : Option EquipKind) (held : Option HeldAnalysis) (j : Option Judgement)
    (s : State) : State :=
  match s.engine.running with
  | none => s
  | some run =>
    giveFinding run s.engine.acq held j
      (reportFinish run.id out
        (setRecord run.route (some (finishRecord run s.engine.acq out s.clock.now held j))
          (withError err run.route (returnReservation s))))

/-- The engine takes its new state after a finish, and the hand-out follows (R16, R110). -/
def concludeIn (st : EngineState) (s : State) : State := handOut { s with engine := s.engine.freed st }

/-- IDLE, or FAULTED when the laser-fault marker is set (R13, R14, R15, R19). -/
def stateAfterStage (s : State) : EngineState := if s.engine.marker then .faulted else .idle

/-- The engine homes the switch: RECOVERING with the switch timer started, or IDLE with its hand-out where the switch
already stands at HOME (R1, R18). -/
def homeSwitch (s : State) : State :=
  if s.switch = .standing .home then handOut { s with engine := s.engine.freed .idle }
  else { s with
    switch := .moving .home
    engine := { s.engine.freed .recovering with timer := some (.switch (timeoutMs s.device.timeout)) } }

/-! ### The stages of an acquisition -/

/-- The laser-fault signal while the engine works or stands, outside the hold of a shelf reset (R19). -/
def faultEngine (s : State) : State :=
  match s.engine.state with
  | .switching | .liveCheck | .firing =>
    concludeIn .faulted (finishEntry .laserFault (some .laserFault) none none (frontOff s))
  | .analysing | .committing =>
    let s' := equipError .laserFault (s.engine.running.map Running.route) s
    { s' with engine := { s'.engine with marker := true } }
  | .idle | .recovering | .faulted =>
    let s' := equipError .laserFault none s
    { s' with engine := { s'.engine with state := .faulted, timer := none } }

/-- The front end raises the laser-fault signal: the laser is off, and during the hold of a shelf reset nothing else comes
of it (R19, R24). -/
def laserFault (s : State) : State :=
  let s' : State := { s with front := { s.front with laser := false } }
  if s.shelf.isSome then s' else faultEngine s'

/-- A passing live check: FIRING with a cleared accumulator and the laser on; a laser fault that stands raises its signal
again (R10, R19). -/
def startFiring (len : Nat) (s : State) : State :=
  let s' : State := { s with
    front := { s.front with laser := true }
    engine := { s.engine with state := .firing, timer := some .shot, shotCount := 0, acc := List.replicate len { sum := 0, sat := false } } }
  if s.front.fault then laserFault s' else s'

/-- The start of ANALYSING: the laser off, the judging settings copied, the baseline of a CHECK noted, the trace buffer
FILLING (R11, R13, R25, R37). -/
def startAnalysing (run : Running) (s : State) : State :=
  { s with
    front := { s.front with laser := false }
    engine := { s.engine with
      state := .analysing
      timer := none
      analysis := s.routes[run.route].body.map fun b =>
        { judging := b.judging
          base := match run.kind with
            | .check => b.baseline.map fun x => { blocks := x.blocks, eb := x.eb, acq := x.acq }
            | .capture => none } }
    trace := .filling { acq := s.engine.acq, route := run.route, kind := run.kind, settings := run.settings }
      (s.engine.acc.map AccCell.sat) }

/-- The levels of the trace buffer. -/
def traceLevels : TraceBuffer → List Nat
  | .held _ _ _ cells => cells.map TraceCell.level
  | _ => []

/-- The 1,024 levels that block `w` of a capture receives (R88). -/
def traceBlock (t : TraceBuffer) (w : Nat) : List Nat := ((traceLevels t).drop (1024 * w)).take 1024

/-- The write of block `w` of the reservation starts (R89). -/
def startWrite (w : Nat) (s : State) : State :=
  { s with store := { s.store with resv := s.store.resv.map fun r => { r with phase := .writing w (traceBlock s.trace w) } } }

/-- The commit of a capture (R14, R75, R91, R133): the reservation becomes the route's block list, the old blocks join the
free pool, and the tracker takes the commit. A running route cannot have been deleted (R73); were it, the reservation
would be returned. -/
def commitCapture (run : Running) (r : Reservation) (h : HeldAnalysis) (s : State) : State :=
  match s.routes[run.route].body with
  | none => { s with store := { s.store with free := giveBack r.blocks s.store.free, resv := none } }
  | some b =>
    let entry := s.routes[run.route]
    let old := match b.baseline with
      | some x => x.blocks
      | none => []
    let base : Baseline := { blocks := r.blocks, eb := h.fields.em, time := h.time, acq := r.acq }
    let s' := setRoute run.route { entry with revision := (entry.revision + 1) % 65536, body := some { b with baseline := some base } } s
    captureClear run.route run.id r.acq h.time
      { s' with store := { s'.store with free := giveBack old s'.store.free, resv := none } }

/-! ### The clock and the windows (chapter 8) -/

/-- One second later, with all its carries (R139). -/
def nextSecond (t : Time) : Time :=
  if t.second + 1 < 60 then { t with second := t.second + 1 }
  else if t.minute + 1 < 60 then { t with minute := t.minute + 1, second := 0 }
  else if t.hour + 1 < 24 then { t with hour := t.hour + 1, minute := 0, second := 0 }
  else { day := (t.day + 1) % 65536, hour := 0, minute := 0, second := 0 }

/-- The opening match of a window at a rollover that leaves the clock at `t` (R146). -/
def opensAt (w : WindowSettings) (t : Time) : Bool :=
  w.factors != 0
    && (!has w.factors 0 || t.minute == w.minute)
    && (!has w.factors 1 || t.hour == w.hour)
    && (!has w.factors 2 || has w.weekdays (t.day % 7))

/-- A window at a minute rollover: opening (R147), countdown, extension and expiry (R148). -/
def windowAtRollover (t : Time) (w : Window) : Window :=
  if !w.settings.enabled then w
  else
    match w.remaining with
    | none => if opensAt w.settings t then { w with remaining := some w.settings.duration } else w
    | some n =>
      if 1 ≤ n - 1 then { w with remaining := some (n - 1) }
      else if opensAt w.settings t then { w with remaining := some w.settings.duration }
      else { w with remaining := none }

def windowNumbers : List WindowNo := [0, 1, 2, 3, 4, 5, 6, 7]

/-- The log entries for the windows that opened or closed between `old` and `new`, in increasing window number (R149). -/
def windowChanges (cause : CloseCause) (old new : Vector Window 8) : List LogBody :=
  windowNumbers.filterMap fun w =>
    if old[w].remaining.isNone && new[w].remaining.isSome then some (.windowOpen w)
    else if old[w].remaining.isSome && new[w].remaining.isNone then some (.windowClose w cause)
    else none

/-- The windows take their new states and what changed is reported: log entries, WINDOW notices, a coverage report
(R149). -/
def changeWindows (cause : CloseCause) (new : Vector Window 8) (s : State) : State :=
  let changes := windowChanges cause s.windows new
  let s' : State := { s with windows := new }
  if changes = [] then s' else coverageReport (raiseAll .window (logWrites changes s'))

/-- A minute rollover that leaves the clock at `t`: during the hold of a shelf reset the windows change and nothing is
reported (R149, R158). -/
def minuteRolls (t : Time) (s : State) : State :=
  let new := mapTable (windowAtRollover t) s.windows
  if s.shelf.isSome then { s with windows := new } else changeWindows .expired new s

/-- One tick of the timebase (R139, R140). -/
def tickClock (s : State) : State :=
  if s.clock.running then
    let t := nextSecond s.clock.now
    let s' : State := { s with clock := { s.clock with now := t } }
    if t.second = 0 then minuteRolls t s' else s'
  else s

/-- The next tick is a minute rollover (R139). -/
def rolloverDue (s : State) : Bool := s.clock.running && (nextSecond s.clock.now).second == 0

/-! ### Resets -/

/-- The card at the start of a reset: links, queue, notices, log, trace buffer, test records, candidates and Equipment
Record emptied, the laser off, the engine waiting in RECOVERING, a HELD reservation returned (R24, R40, R58, R96, R126,
R136, R168, R175, R181). A write in flight goes on, and the trace buffer is emptied only when it ends (R40). -/
def beginReset (s : State) : State :=
  let s' := returnReservation s
  { s' with
    front := { s'.front with laser := false, checking := false, record := none }
    engine := Engine.waiting
    equip := none
    trace := if writeInFlight s then s.trace else .empty
    records := Vector.replicate 48 none
    queue := Queue.empty
    cands := Vector.replicate 48 none
    notices := PerClient.const NoticeState.reset
    log := { ring := [], next := 0, readers := PerClient.const LogReader.reset }
    links := PerClient.const Link.reset
    craftArmed := false }

/-- A route's fault record made to agree with its status (R136). -/
def repairedFault (now : Time) (e : RouteEntry) (f : FaultRecord) : FaultRecord :=
  match e.body.bind RouteBody.baseline with
  | some b => if f.cond = .unknown then capturedRecord none b.time b.acq else f
  | none => if f.cond = .unknown then f else FaultRecord.unknownAt now

/-- The repair of R136 over all routes. -/
def repairConditions (s : State) : State :=
  { s with faults := ⟨⟨List.zipWith (repairedFault s.clock.now) s.routes.toList s.faults.toList⟩, by simp⟩ }

/-- The card takes up service again: the repair, the RESET entry, and the homing of the switch unless a block write is
still in flight (R24, R136, R175). -/
def endReset (k : ResetKind) (s : State) : State :=
  let s' := logWrite (.reset k) (repairConditions { s with shelf := none })
  if writeInFlight s' then s' else homeSwitch s'

/-- A craft reset takes effect (R182). -/
def craftResetNow (s : State) : State := endReset .craftReset (beginReset s)

/-- What power loss leaves and POWER-ON makes of it before service: the volatile state is as after every reset, the clock is
STOPPED at zero with every window CLOSED, the trace buffer is EMPTY, the reservation is gone and the pool rebuilt, and the
switch position is not known (R1, R40, R97, R157). A block whose write power loss cut off holds free values. -/
def powerLoss (s : State) : State :=
  let lost := match s.store.resv.bind writingBlock with
    | some (_, b, _) => writeBlock b (spoiltBlock s.freeCount) s.store.mem
    | none => s.store.mem
  let count := if writeInFlight s then s.freeCount + 1 else s.freeCount
  let s' := beginReset s
  { s' with
    switch := .unknown
    trace := .empty
    clock := { now := Time.zero, running := false }
    windows := mapTable (fun w => { w with remaining := none }) s'.windows
    store := { s'.store with free := rebuiltPool s', resv := none, mem := lost }
    freeCount := count }

/-- The reservation's end when a write in flight completes after a reset, and the homing that waited for it (R24, R96). -/
def resumeHoming (s : State) : State :=
  if s.shelf.isNone && s.engine.state == .recovering then homeSwitch s else s

end Sys2Proof.Machine
end

