-- ==== Sys2Proof/Machine/ClockEvents.lean ====
section
/-! DEFINITION. The events of the timebase and of the pulse timers: TICK, MINUTE_ROLLOVER, WINDOW_COUNT_EXPIRY,
PULSE_TIMER_EXPIRY (R139, R148, R149, R166). -/

namespace Sys2Proof.Machine

/-- TICK (R139): one tick of the 1 Hz timebase, the minute rollover included where it makes one. -/
def execTick (s : State) : Host.Outcome State Fault Refusal := .next (tickClock s)

/-- MINUTE_ROLLOVER (R149): the tick that takes the seconds from 59 to 0. Where the next tick makes no rollover there is
no such event (assumption 8). -/
def execMinuteRollover (s : State) : Host.Outcome State Fault Refusal :=
  .next (if rolloverDue s then tickClock s else s)

/-- WINDOW_COUNT_EXPIRY (R148): the rollover at which the count of window `w` reaches 0. Where the next tick is not that
rollover there is no such event (assumption 8). -/
def execWindowCountExpiry (w : WindowNo) (s : State) : Host.Outcome State Fault Refusal :=
  .next (if rolloverDue s && s.windows[w].settings.enabled && s.windows[w].remaining == some 1 then tickClock s else s)

/-- PULSE_TIMER_EXPIRY (R166). -/
def execPulseTimerExpiry (c : Client) (s : State) : Host.Outcome State Fault Refusal :=
  .next { s with notices := perSet s.notices c (endPulse (perGet s.notices c)) }

end Sys2Proof.Machine
end

