-- ==== Sys2Proof/Machine/Link.lean ====
section
/-! DEFINITION. A request taken on a link: one in service at a time, the BUSY answers, the privileges, and the reply put
on the link (R179, R180, Table 11-1). -/

namespace Sys2Proof.Machine

/-- The work of a request's owner: the state it leaves, and the status and data of the reply (R180, check 4). -/
abbrev Owner := State → State × Status × ReplyData

/-- The codes of Table 11-1. -/
def knownCode (code : Nat) : Bool := decide (1 ≤ code) && decide (code ≤ 0x1C)

/-- The requests that only CR may send: CLEAR_HOLDS and RESET (Table 11-1). -/
def craftOnly (code : Nat) : Bool := code == 0x0D || code == 0x1C

/-- The requests that LS may not send though SC-A, SC-B and CR may (Table 11-1). -/
def notFromLs (code : Nat) : Bool :=
  [0x05, 0x06, 0x0B, 0x0C, 0x0E, 0x10, 0x11, 0x12, 0x18, 0x1B].contains code

/-- Table 11-1. -/
def permitted (code : Nat) : Client → Bool
  | .cr => true
  | .ls => !craftOnly code && !notFromLs code
  | .scA | .scB => !craftOnly code

def setLink (c : Client) (l : Link) (s : State) : State := { s with links := perSet s.links c l }

/-- The answers of status BUSY that are owed. -/
def owedBusy (l : Link) : Nat := (l.owed.filter fun r => r.status == .busy).length

/-- A good frame completed while the link is in service: a BUSY answer is owed for it, or with 4 of them owed it is
discarded (R179). -/
def refuseBusy (c : Client) (tag : Byte) (s : State) : State :=
  let l := perGet s.links c
  if owedBusy l < 4 then setLink c { l with owed := l.owed ++ [{ tag, status := .busy, data := .none }] } s else s

/-- The reply of the request taken on a link: the link is in service until it has been sent (R179). -/
def answer (c : Client) (tag : Byte) (code : Nat) (p : State × Status × ReplyData) : State :=
  let l := perGet p.1.links c
  setLink c { l with service := some { tag, code }, owed := l.owed ++ [{ tag, status := p.2.1, data := p.2.2 }] } p.1

/-- A good frame with request code `code` completed on the link of `c`: discarded during the hold of a shelf reset (R181),
answered BUSY while the link is in service (R179), otherwise taken by `own`. -/
def onLink (c : Client) (tag : Byte) (code : Nat) (own : Owner) (s : State) : State :=
  if s.shelf.isSome then s
  else if (perGet s.links c).service.isSome then refuseBusy c tag s
  else answer c tag code (own s)

/-- The privilege check before the owner's work (R180, check 2). -/
def ifPermitted (c : Client) (code : Nat) (own : Owner) : Owner := fun s =>
  if permitted code c then own s else (s, .notPermitted, .none)

/-- A well-shaped request on a link. -/
def request (c : Client) (tag : Byte) (code : Nat) (own : Owner) (s : State) :
    Host.Outcome State Fault Refusal :=
  .next (onLink c tag code (ifPermitted c code own) s)

end Sys2Proof.Machine
end

