-- ==== Sys2Proof/Machine/DeviceRequests.lean ====
section
/-! DEFINITION. The requests of the device settings, the Equipment Record and the craft reset: SET_DEVICE, READ_DEVICE,
READ_EQUIPMENT, CLEAR_EQUIPMENT, RESET (chapters 1, 4 and 11). -/

namespace Sys2Proof.Machine

/-- SET_DEVICE (R23, R80, R81): a changed barred range is reported to the Test Queue. -/
def ownSetDevice (p : DeviceParts) : Owner := fun s =>
  match deviceOf p s.device with
  | none => (s, .badValue, .none)
  | some d =>
    let s' : State := { s with device := d }
    (if d.barred = s.device.barred then s' else routeReport (isClosed s) s', .ok, .none)

/-- READ_DEVICE (R23). -/
def ownReadDevice : Owner := fun s => (s, .ok, .device s.device s.front.record)

/-- READ_EQUIPMENT (R22). -/
def ownReadEquipment : Owner := fun s => (s, .ok, .equipment s.equip s.engine.state s.engine.acq s.switch)

/-- The engine leaves FAULTED: it homes the switch, or waits while a block write that was in flight at a reset has not
completed (R22, R24). -/
def leaveFaulted (s : State) : State :=
  if writeInFlight s then { s with engine := s.engine.freed .recovering } else homeSwitch s

/-- CLEAR_EQUIPMENT (R22). -/
def ownClearEquipment (c : Client) : Owner := fun s =>
  let s' : State := { s with equip := none }
  if s.engine.state = .faulted then
    if c = .cr then (leaveFaulted s', .ok, .none) else (s, .notPermitted, .none)
  else (s', .ok, .none)

/-- RESET (R182): answered OK, the craft reset to come when that reply has been sent. -/
def ownReset : Owner := fun s => ({ s with craftArmed := true }, .ok, .none)

def execSetDevice (c : Client) (tag : Byte) (p : DeviceParts) (s : State) : Host.Outcome State Fault Refusal :=
  request c tag 0x18 (ownSetDevice p) s

def execReadDevice (c : Client) (tag : Byte) (s : State) : Host.Outcome State Fault Refusal :=
  request c tag 0x19 ownReadDevice s

def execReadEquipment (c : Client) (tag : Byte) (s : State) : Host.Outcome State Fault Refusal :=
  request c tag 0x1A ownReadEquipment s

def execClearEquipment (c : Client) (tag : Byte) (s : State) : Host.Outcome State Fault Refusal :=
  request c tag 0x1B (ownClearEquipment c) s

def execResetRequest (c : Client) (tag : Byte) (s : State) : Host.Outcome State Fault Refusal :=
  request c tag 0x1C ownReset s

end Sys2Proof.Machine
end

