-- ==== Sys2Proof/Machine/NoticeRequests.lean ====
section
/-! DEFINITION. The requests of the Notice Unit and of the Result Log: SET_NOTICES, READ_NOTICES, ACK_NOTICES, READ_LOG
(chapters 9 and 10). -/

namespace Sys2Proof.Machine

def setNotice (c : Client) (n : NoticeState) (s : State) : State := { s with notices := perSet s.notices c n }

def setReader (c : Client) (r : LogReader) (s : State) : State :=
  { s with log := { s.log with readers := perSet s.log.readers c r } }

/-- SET_NOTICES (R160, R167, R173): the settings are stored and applied to the line at once, then a carried threshold at
or below the unread count makes its LOG raise (assumption 12). -/
def ownSetNotices (c : Client) (p : NoticeParts) : Owner := fun s =>
  let n := perGet s.notices c
  let r := perGet s.log.readers c
  match noticeSettingsOf p n.settings, partOf positiveByteOf r.threshold p.threshold with
  | some new, some t =>
    let s1 := setReader c { r with threshold := t } (setNotice c (applySettings new n) s)
    let s2 := if p.threshold.isSome && decide (t ≤ unreadCount s.log r) then raiseTo (· == c) .log s1 else s1
    (s2, .ok, .noticeSettings new t)
  | _, _ => (s, .badValue, .none)

/-- READ_NOTICES (R162). -/
def ownReadNotices (c : Client) : Owner := fun s =>
  let n := perGet s.notices c
  (match n.settings.clearMode with
    | .onRead => setNotice c (clearTo Pending.none n) s
    | .onAck => s,
    .ok, .pending n.pending n.settings.clearMode)

/-- What stays pending after an acknowledge (R163). -/
def acknowledged (a : AckParts) (p : Pending) : Pending :=
  { faults := p.faults &&& ~~~a.routes
    done := p.done && !a.done
    window := p.window && !a.window
    marks := p.marks &&& ~~~a.marks
    equip := p.equip && !a.equip
    log := p.log && !a.log }

/-- ACK_NOTICES (R163). -/
def ownAckNotices (c : Client) (a : AckParts) : Owner := fun s =>
  let n := perGet s.notices c
  let n' := clearTo (acknowledged a n.pending) n
  (setNotice c n' s, .ok, .pending n'.pending n.settings.clearMode)

/-- The entries a client has not read, oldest first (section 10.2). -/
def unreadEntries (l : ResultLog) (r : LogReader) : List LogEntry := l.ring.drop (l.ring.length - unreadCount l r)

/-- READ_LOG (R172). -/
def ownReadLog (c : Client) : Owner := fun s =>
  let r := perGet s.log.readers c
  let es := (unreadEntries s.log r).take 8
  (setReader c { r with cursor := (r.cursor + es.length) % 65536, overrun := false } s, .ok,
    .log r.overrun es (unreadCount s.log r - es.length) (oldestNumber s.log) (newestNumber s.log))

def execSetNotices (c : Client) (tag : Byte) (p : NoticeParts) (s : State) : Host.Outcome State Fault Refusal :=
  request c tag 0x14 (ownSetNotices c p) s

def execReadNotices (c : Client) (tag : Byte) (s : State) : Host.Outcome State Fault Refusal :=
  request c tag 0x15 (ownReadNotices c) s

def execAckNotices (c : Client) (tag : Byte) (a : AckParts) (s : State) : Host.Outcome State Fault Refusal :=
  request c tag 0x16 (ownAckNotices c a) s

def execReadLog (c : Client) (tag : Byte) (s : State) : Host.Outcome State Fault Refusal :=
  request c tag 0x17 (ownReadLog c) s

end Sys2Proof.Machine
end

