-- ==== Sys2Proof/Machine/QueueRequests.lean ====
section
/-! DEFINITION. The requests of the Test Queue: TEST, CANCEL, MARK, READ_QUEUE (chapter 6). -/

namespace Sys2Proof.Machine

/-- The OK reply to a TEST, formed after the hand-out: the position of the entry as it then stands, a free value where it
has already left the queue (R102, R106, R107; assumption 5). -/
def testReply (id : Nat) (word : TestWord) (s : State) : State × Status × ReplyData :=
  match positionOf id s with
  | some p => (s, .ok, .test id word p)
  | none => ({ s with freeCount := s.freeCount + 1 }, .ok, .test id word (Config.gonePosition s.freeCount).toNat)

/-- TEST (R105). -/
def ownTest (c : Client) (route kind cls : Nat) : Owner := fun s =>
  match routeOf route, kindOf kind, classOf cls with
  | some r, some k, some cl =>
    match askTest (bitOf c) r k cl s with
    | (.noRoute, s') => (s', .noRoute, .none)
    | (.held, s') => (s', .held, .testHeld s.routes[r].holds (isBarred s r))
    | (.barred, s') => (s', .barred, .testBarred s.device.barred)
    | (.full, s') => (s', .queueFull, .none)
    | (.placed id word, s') => testReply id word s'
  | _, _, _ => (s, .badValue, .none)

/-- CANCEL (R117, R118). -/
def ownCancel (c : Client) (id : Nat) : Owner := fun s =>
  match s.queue.entries.find? fun e => e.id == id with
  | none => (s, .noEntry, .none)
  | some e =>
    if !has e.reqs (bitOf c) then (s, .notRequester, .none)
    else
      let left := del e.reqs (bitOf c)
      if left ≠ 0 then
        (dropFromMarks c id (setEntries (s.queue.entries.map fun x => if x.id = id then { x with reqs := left } else x) s),
          .ok, .cancel left .kept)
      else
        match e.running with
        | none => (leaveQueue e .cancelled 0 (some c) s, .ok, .cancel 0 .removed)
        | some acq =>
          if stopsFor acq s then
            (handOut (leaveQueue e .cancelled 0 (some c) (stopAcquisition s)), .ok, .cancel 0 .removed)
          else (s, .routeBusy, .none)

/-- The lowest mark number the client has free (R122). -/
def freeMark (ms : List Mark) : Nat := ((List.range 4).find? fun n => !ms.any fun m => m.number == n).getD 0

/-- A mark placed in increasing number. -/
def insertMark (m : Mark) (ms : List Mark) : List Mark :=
  ms.takeWhile (fun x => decide (x.number < m.number)) ++ m :: ms.dropWhile (fun x => decide (x.number < m.number))

/-- The ids of the entries whose requester set holds the client, in queue order. -/
def requestedBy (c : Client) (es : List Entry) : List Nat :=
  (es.filter fun e => has e.reqs (bitOf c)).map Entry.id

/-- MARK (R122). -/
def ownMark (c : Client) : Owner := fun s =>
  let ms := perGet s.queue.marks c
  if 4 ≤ ms.length then (s, .marksFull, .none)
  else
    let n := freeMark ms
    let wait := requestedBy c s.queue.entries
    if wait = [] then (raiseTo (· == c) (.mark n) s, .ok, .mark n 0)
    else
      ({ s with queue := { s.queue with marks := perSet s.queue.marks c (insertMark { number := n, wait } ms) } },
        .ok, .mark n wait.length)

/-- One entry as READ_QUEUE shows it (R124). -/
def queueRow (s : State) (position : Nat) (e : Entry) : QueueRow :=
  { position, id := e.id, route := e.route, kind := e.kind, cls := e.cls, reqs := e.reqs,
    standing := match e.running with
      | some acq => .inl acq
      | none => .inr (eligibilityOf s e) }

/-- READ_QUEUE (R124). -/
def ownReadQueue (c : Client) (start : Nat) : Owner := fun s =>
  if start < 1 ∨ 32 < start then (s, .badValue, .none)
  else
    let rows := (s.queue.entries.zipIdx 1).map fun p => queueRow s p.2 p.1
    (s, .ok, .queue s.queue.entries.length s.engine.state ((rows.drop (start - 1)).take 16)
      ((perGet s.queue.marks c).map fun m => (m.number, m.wait.length)))

def execTest (c : Client) (tag : Byte) (route kind cls : Nat) (s : State) : Host.Outcome State Fault Refusal :=
  request c tag 0x01 (ownTest c route kind cls) s

def execCancel (c : Client) (tag : Byte) (id : Nat) (s : State) : Host.Outcome State Fault Refusal :=
  request c tag 0x02 (ownCancel c id) s

def execMark (c : Client) (tag : Byte) (s : State) : Host.Outcome State Fault Refusal :=
  request c tag 0x03 (ownMark c) s

def execReadQueue (c : Client) (tag : Byte) (start : Nat) (s : State) : Host.Outcome State Fault Refusal :=
  request c tag 0x04 (ownReadQueue c start) s

end Sys2Proof.Machine
end

