-- ==== Sys2Proof/Machine/ResultRequests.lean ====
section
/-! DEFINITION. The requests that read results: READ_RESULT, READ_TRACE, READ_BASELINE (chapters 2, 3, 5 and 7). -/

namespace Sys2Proof.Machine

/-- The confirm count of a route, as the fault part shows it (R137). -/
def confirmOf (e : RouteEntry) : Nat :=
  match e.body with
  | some b => b.judging.confirm
  | none => 0

/-- READ_RESULT (R59, R137, R184). -/
def ownReadResult (route : Nat) (first : Option Nat) : Owner := fun s =>
  match routeOf route with
  | none => (s, .badValue, .none)
  | some r =>
    if 15 < first.getD 0 then (s, .badValue, .none)
    else if routeStatus s.routes[r] = .unused then (s, .noRoute, .none)
    else
      (s, .ok, .result (first.getD 0) s.records[r]
        { record := s.faults[r], candidate := s.cands[r], confirm := confirmOf s.routes[r] })

/-- The acquisition number the trace buffer holds, none when it is not HELD (R39). -/
def heldAcq : TraceBuffer → Option Nat
  | .held l _ _ _ => some l.acq
  | _ => none

/-- READ_TRACE (R38, R39). A trace that a reset has come upon is STALE while it still stands in the buffer (R40); the reply
names the acquisition that the buffer holds (R39; assumption 17). -/
def ownReadTrace (acq offset count : Nat) : Owner := fun s =>
  if count < 1 ∨ 64 < count then (s, .badValue, .none)
  else
    match s.trace with
    | .held l dz em cells =>
      if l.acq ≠ acq ∨ writeCutOff s then (s, .stale, .traceStale (some l.acq))
      else if cells.length ≤ offset then (s, .badValue, .none)
      else
        let sat := satPositions cells
        (s, .ok, .trace l dz em sat.length sat.head? offset ((cells.drop offset).take count))
    | _ => (s, .stale, .traceStale none)

/-- The pool summary (R99). -/
def poolSummary (s : State) : PoolSummary :=
  { free := s.store.free.length
    bad := s.store.bad.length
    resvSize := match s.store.resv with
      | some r => r.blocks.length
      | none => 0
    resv := s.store.resv.map fun r => (r.route, match r.phase with
      | .held => none
      | .writing w _ => some w) }

/-- READ_BASELINE (R98, R99). -/
def ownReadBaseline (route offset count : Nat) (expected : Option Nat) : Owner := fun s =>
  match routeOf route with
  | none => (s, .badValue, .none)
  | some r =>
    let e := s.routes[r]
    if count < 1 ∨ 64 < count then (s, .badValue, .none)
    else
      match e.body with
      | none => (s, .noRoute, .baselineNone e.revision (poolSummary s))
      | some b =>
        match b.baseline with
        | none => (s, .noEntry, .baselineNone e.revision (poolSummary s))
        | some x =>
          let head : BaselineHead := { revision := e.revision, len := b.acq.len, eb := x.eb, time := x.time, acq := x.acq,
                                       blocks := x.blocks.length }
          if expected.any (· != x.acq) then (s, .stale, .baselineStale (poolSummary s) head)
          else if b.acq.len ≤ offset then (s, .badValue, .none)
          else
            (s, .ok, .baseline (poolSummary s) head offset
              (((listLevels s.store.mem x.blocks).drop offset).take (min count (b.acq.len - offset))))

def execReadResult (c : Client) (tag : Byte) (route : Nat) (first : Option Nat) (s : State) :
    Host.Outcome State Fault Refusal :=
  request c tag 0x08 (ownReadResult route first) s

def execReadTrace (c : Client) (tag : Byte) (acq offset count : Nat) (s : State) : Host.Outcome State Fault Refusal :=
  request c tag 0x09 (ownReadTrace acq offset count) s

def execReadBaseline (c : Client) (tag : Byte) (route offset count : Nat) (expected : Option Nat) (s : State) :
    Host.Outcome State Fault Refusal :=
  request c tag 0x0A (ownReadBaseline route offset count expected) s

end Sys2Proof.Machine
end

