-- ==== Sys2Proof/Machine/RouteRequests.lean ====
section
/-! DEFINITION. The requests of the Route Table: DEFINE_ROUTE, DELETE_ROUTE, READ_ROUTE, HOLD, RELEASE, CLEAR_HOLDS
(chapter 4). -/

namespace Sys2Proof.Machine

/-- An entry of the route is RUNNING (R68). -/
def routeRunning (s : State) (r : RouteNo) : Bool :=
  s.queue.entries.any fun e => e.running.isSome && decide (e.route = r)

/-- The definition changes acquisition settings (R68). -/
def changesAcq (e : RouteEntry) (d : RouteDef) : Bool :=
  match e.body with
  | none => false
  | some b => b.acq != acqOf d

def nextRevision (e : RouteEntry) : Nat := (e.revision + 1) % 65536

/-- The blocks of a route's baseline, none where it has no baseline. -/
def baselineBlocks (e : RouteEntry) : List Nat :=
  match e.body.bind RouteBody.baseline with
  | some b => b.blocks
  | none => []

/-- The entry an accepted definition leaves (R69, R70, R71). -/
def definedEntry (e : RouteEntry) (d : RouteDef) : RouteEntry :=
  { e with
    revision := nextRevision e
    body := some
      { label := storedLabel d.label
        acq := acqOf d
        judging := judgingOf d
        baseline := if changesAcq e d then none else e.body.bind RouteBody.baseline } }

/-- The effects of an accepted definition, in the order of R72. -/
def acceptDefinition (c : Client) (r : RouteNo) (d : RouteDef) (s : State) : State :=
  let e := s.routes[r]
  let discards := changesAcq e d && (routeStatus e == .baselined)
  let s1 := setRoute r (definedEntry e d) s
  let s2 := if discards then freeBlocks (baselineBlocks e) s1 else s1
  let s3 := logWrite (.routeChange r c .defined) s2
  if discards then setUnknown r c s3 else setCand r none s3

/-- DEFINE_ROUTE (R64 to R72). -/
def ownDefineRoute (c : Client) (route rev : Nat) (d : RouteDef) : Owner := fun s =>
  match routeOf route with
  | none => (s, .badValue, .field 0)
  | some r =>
    let e := s.routes[r]
    if rev ≠ e.revision then (s, .stale, .revision e.revision)
    else
      match refusedField d with
      | some f => (s, .badValue, .field f)
      | none =>
        if d.len < deadZone (acqOf d) d.dead + 2 * (judgingOf d).width then (s, .badValue, .field 15)
        else if changesAcq e d && routeRunning s r then (s, .routeBusy, .none)
        else
          (acceptDefinition c r d s,
            if clampedFields d = [] then (.ok, .revision (nextRevision e))
            else (.okClamped, .clamped (clampedFields d) (nextRevision e)))

/-- The WAITING entries of a deleted route leave the queue, in queue order (R120). -/
def removeWaiting (r : RouteNo) (s : State) : State :=
  (s.queue.entries.filter fun e => isWaiting e && decide (e.route = r)).foldl
    (fun s e => leaveQueue e .routeDeleted e.reqs none s) s

/-- The effects of an accepted deletion, in the order of R74. -/
def acceptDeletion (c : Client) (r : RouteNo) (s : State) : State :=
  let e := s.routes[r]
  let s1 := setRoute r { e with revision := nextRevision e, body := none } s
  let s2 := freeBlocks (baselineBlocks e) (setRecord r none s1)
  removeWaiting r (setUnknown r c (logWrite (.routeChange r c .deleted) s2))

/-- DELETE_ROUTE (R73, R74). -/
def ownDeleteRoute (c : Client) (route rev : Nat) : Owner := fun s =>
  match routeOf route with
  | none => (s, .badValue, .none)
  | some r =>
    let e := s.routes[r]
    if routeStatus e = .unused then (s, .noRoute, .none)
    else if rev ≠ e.revision then (s, .stale, .revision e.revision)
    else if routeRunning s r then (s, .routeBusy, .none)
    else (acceptDeletion c r s, .ok, .revision (nextRevision e))

/-- The settings part of a READ_ROUTE reply (R76). -/
def routeView (b : RouteBody) : RouteView :=
  { label := b.label
    acq := b.acq
    judging := b.judging
    span := pulseSpan b.acq.pulse b.acq.spacing
    dzEff := deadZone b.acq b.judging.dead
    baseline := b.baseline.map fun x =>
      { blocks := x.blocks.length, eb := x.eb, dEb := distance b.acq.spacing b.acq.index x.eb, time := x.time, acq := x.acq } }

/-- READ_ROUTE (R76). -/
def ownReadRoute (route : Nat) : Owner := fun s =>
  match routeOf route with
  | none => (s, .badValue, .none)
  | some r =>
    let e := s.routes[r]
    (s, .ok, .route r (routeStatus e) e.revision e.holds (isBarred s r) (routeRunning s r) (e.body.map routeView))

/-- A change of a route's hold set: stored and logged, and reported to the Test Queue where the set was or becomes empty
(R77, R78, R79, R82). -/
def changeHolds (c : Client) (r : RouteNo) (h : HoldSet) (s : State) : State :=
  let s' := logWrite (.holdChange r c h) (setRoute r { s.routes[r] with holds := h } s)
  if s.routes[r].holds = 0 ∨ h = 0 then routeReport (isClosed s) s' else s'

/-- HOLD (R77). -/
def ownHold (c : Client) (route : Nat) : Owner := fun s =>
  match routeOf route with
  | none => (s, .badValue, .none)
  | some r =>
    let h := s.routes[r].holds
    if has h (bitOf c) then (s, .ok, .holds h)
    else (changeHolds c r (add h (bitOf c)) s, .ok, .holds (add h (bitOf c)))

/-- RELEASE (R78). -/
def ownRelease (c : Client) (route : Nat) : Owner := fun s =>
  match routeOf route with
  | none => (s, .badValue, .none)
  | some r =>
    let h := s.routes[r].holds
    if !has h (bitOf c) then (s, .notHeld, .holds h)
    else (changeHolds c r (del h (bitOf c)) s, .ok, .holds (del h (bitOf c)))

/-- CLEAR_HOLDS (R79). -/
def ownClearHolds (c : Client) (route : Nat) : Owner := fun s =>
  match routeOf route with
  | none => (s, .badValue, .none)
  | some r => (if s.routes[r].holds = 0 then s else changeHolds c r 0 s, .ok, .none)

def execDefineRoute (c : Client) (tag : Byte) (route rev : Nat) (d : RouteDef) (s : State) :
    Host.Outcome State Fault Refusal :=
  request c tag 0x05 (ownDefineRoute c route rev d) s

def execDeleteRoute (c : Client) (tag : Byte) (route rev : Nat) (s : State) : Host.Outcome State Fault Refusal :=
  request c tag 0x06 (ownDeleteRoute c route rev) s

def execReadRoute (c : Client) (tag : Byte) (route : Nat) (s : State) : Host.Outcome State Fault Refusal :=
  request c tag 0x07 (ownReadRoute route) s

def execHold (c : Client) (tag : Byte) (route : Nat) (s : State) : Host.Outcome State Fault Refusal :=
  request c tag 0x0B (ownHold c route) s

def execRelease (c : Client) (tag : Byte) (route : Nat) (s : State) : Host.Outcome State Fault Refusal :=
  request c tag 0x0C (ownRelease c route) s

def execClearHolds (c : Client) (tag : Byte) (route : Nat) (s : State) : Host.Outcome State Fault Refusal :=
  request c tag 0x0D (ownClearHolds c route) s

end Sys2Proof.Machine
end

