-- ==== Sys2Proof/Machine/TimeRequests.lean ====
section
/-! DEFINITION. The requests of the Timekeeping Unit: SET_WINDOW, READ_WINDOW, SET_CLOCK, START_CLOCK, STOP_CLOCK, READ_CLOCK
(chapter 8). -/

namespace Sys2Proof.Machine

/-- The window after an accepted edit: a disabled one is CLOSED (R152), an open one keeps its count, cut to a shorter
duration (R154). -/
def editedWindow (w : WindowSettings) (old : Window) : Window :=
  { settings := w, remaining := if w.enabled then old.remaining.map (min w.duration) else none }

/-- The effects of an accepted SET_WINDOW (R151 to R154). -/
def acceptWindow (i : WindowNo) (w : WindowSettings) (s : State) : State :=
  let old := s.windows[i]
  let new := s.windows.set i (editedWindow w old)
  if old.remaining.isSome && !w.enabled then changeWindows .edited new s
  else if old.remaining.isSome && old.settings.routes != w.routes then coverageReport { s with windows := new }
  else { s with windows := new }

/-- SET_WINDOW (R151). -/
def ownSetWindow (i : Nat) (d : WindowDef) : Owner := fun s =>
  match windowOf i, windowSettingsOf d with
  | some i, some w =>
    let s' := acceptWindow i w s
    (s', if 720 < d.duration then .okClamped else .ok, .window s'.windows[i].settings s'.windows[i].remaining)
  | _, _ => (s, .badValue, .none)

/-- READ_WINDOW (R155). -/
def ownReadWindow (i : Nat) : Owner := fun s =>
  match windowOf i with
  | none => (s, .badValue, .none)
  | some i =>
    (s, .ok, .windowRead s.windows[i].settings s.windows[i].remaining s.clock.now s.clock.running (coveredRoutes s))

/-- The clock passes from STOPPED to RUNNING (R142). -/
def startClock (c : Client) (s : State) : State :=
  logWrite (.clock c .started) { s with clock := { s.clock with running := true } }

/-- SET_CLOCK (R141). -/
def ownSetClock (c : Client) (day hour minute : Nat) (start : Bool) : Owner := fun s =>
  if 23 < hour ∨ 59 < minute then (s, .badValue, .none)
  else if s.clock.running then (s, .clockRunning, .none)
  else
    let s1 := logWrite (.clock c .set) { s with clock := { s.clock with now := { day, hour, minute, second := 0 } } }
    let s2 := if start then startClock c s1 else s1
    (s2, .ok, .clockRun s2.clock.now s2.clock.running)

/-- START_CLOCK (R142). -/
def ownStartClock (c : Client) : Owner := fun s =>
  let s' := if s.clock.running then s else startClock c s
  (s', .ok, .clock s'.clock.now)

/-- STOP_CLOCK (R143). -/
def ownStopClock (c : Client) : Owner := fun s =>
  if s.clock.running then
    let s1 := logWrite (.clock c .stopped) { s with clock := { s.clock with running := false } }
    let s2 := changeWindows .clockStopped (mapTable (fun w => { w with remaining := none }) s1.windows) s1
    (s2, .ok, .clockRun s2.clock.now s2.clock.running)
  else (s, .ok, .clock s.clock.now)

/-- READ_CLOCK (R144). -/
def ownReadClock : Owner := fun s => (s, .ok, .clockRead s.clock.now (s.clock.now.day % 7) s.clock.running)

def execSetWindow (c : Client) (tag : Byte) (w : Nat) (d : WindowDef) (s : State) : Host.Outcome State Fault Refusal :=
  request c tag 0x0E (ownSetWindow w d) s

def execReadWindow (c : Client) (tag : Byte) (w : Nat) (s : State) : Host.Outcome State Fault Refusal :=
  request c tag 0x0F (ownReadWindow w) s

def execSetClock (c : Client) (tag : Byte) (day hour minute : Nat) (start : Bool) (s : State) :
    Host.Outcome State Fault Refusal :=
  request c tag 0x10 (ownSetClock c day hour minute start) s

def execStartClock (c : Client) (tag : Byte) (s : State) : Host.Outcome State Fault Refusal :=
  request c tag 0x11 (ownStartClock c) s

def execStopClock (c : Client) (tag : Byte) (s : State) : Host.Outcome State Fault Refusal :=
  request c tag 0x12 (ownStopClock c) s

def execReadClock (c : Client) (tag : Byte) (s : State) : Host.Outcome State Fault Refusal :=
  request c tag 0x13 ownReadClock s

end Sys2Proof.Machine
end

