-- ==== Sys2Proof/Machine/LinkEvents.lean ====
section
/-! DEFINITION. The events of the links: a character received, a framing error, the expiry of the gap timer, the end of a
reply (R176 to R182). -/

namespace Sys2Proof.Machine

/-- A well-shaped request goes to its owner (R180, check 4). -/
def serve (c : Client) (tag : Byte) (r : Request) (s : State) : Host.Outcome State Fault Refusal :=
  match r with
  | .test route kind cls => execTest c tag route kind cls s
  | .cancel id => execCancel c tag id s
  | .mark => execMark c tag s
  | .readQueue start => execReadQueue c tag start s
  | .defineRoute route rev d => execDefineRoute c tag route rev d s
  | .deleteRoute route rev => execDeleteRoute c tag route rev s
  | .readRoute route => execReadRoute c tag route s
  | .readResult route first => execReadResult c tag route first s
  | .readTrace acq offset count => execReadTrace c tag acq offset count s
  | .readBaseline route offset count e => execReadBaseline c tag route offset count e s
  | .hold route => execHold c tag route s
  | .release route => execRelease c tag route s
  | .clearHolds route => execClearHolds c tag route s
  | .setWindow w d => execSetWindow c tag w d s
  | .readWindow w => execReadWindow c tag w s
  | .setClock day hour minute start => execSetClock c tag day hour minute start s
  | .startClock => execStartClock c tag s
  | .stopClock => execStopClock c tag s
  | .readClock => execReadClock c tag s
  | .setNotices p => execSetNotices c tag p s
  | .readNotices => execReadNotices c tag s
  | .ackNotices a => execAckNotices c tag a s
  | .readLog => execReadLog c tag s
  | .setDevice p => execSetDevice c tag p s
  | .readDevice => execReadDevice c tag s
  | .readEquipment => execReadEquipment c tag s
  | .clearEquipment => execClearEquipment c tag s
  | .reset => execResetRequest c tag s

/-- A good frame: the checks of R180 in their order, then the owner. -/
def takeFrame (c : Client) (body : List Byte) (s : State) : Host.Outcome State Fault Refusal :=
  match body with
  | tag :: code :: ps =>
    if !knownCode code.toNat then .next (onLink c tag code.toNat (fun s => (s, .badRequest, .none)) s)
    else
      match parseRequest code.toNat ps with
      | some r => serve c tag r s
      | none => request c tag code.toNat (fun s => (s, .badRequest, .none)) s
  | _ => .next s

def setRx (c : Client) (a : Assembly) (s : State) : State := setLink c { perGet s.links c with rx := a } s

/-- The check over the length byte and the body agrees with the one received (R178). -/
def checkAgrees (body : List Byte) (high low : Byte) : Bool :=
  frameCheck (BitVec.ofNat 8 body.length :: body) == high ++ low

/-- CHARACTER_RECEIVED (R177): the assembly moves, and the second check byte completes the frame. -/
def execCharacterReceived (c : Client) (b : Byte) (s : State) : Host.Outcome State Fault Refusal :=
  if s.shelf.isSome then .next s
  else
    match (perGet s.links c).rx with
    | .hunt => .next (if b = 0xA5 then setRx c .length s else s)
    | .length => .next (setRx c (if 2 ≤ b.toNat ∧ b.toNat ≤ 250 then .body b.toNat [] else .hunt) s)
    | .body n got =>
      let got' := got ++ [b]
      .next (setRx c (if got'.length < n then .body n got' else .check got' none) s)
    | .check body none => .next (setRx c (.check body (some b)) s)
    | .check body (some high) =>
      let s' := setRx c .hunt s
      if checkAgrees body high b then takeFrame c body s' else .next s'

/-- FRAMING_ERROR (R176): a partial frame is discarded. -/
def execFramingError (c : Client) (s : State) : Host.Outcome State Fault Refusal :=
  .next (if s.shelf.isSome then s else setRx c .hunt s)

/-- GAP_TIMER_EXPIRY (R177): the partial frame is discarded; in HUNT no gap timer runs. -/
def execGapTimerExpiry (c : Client) (s : State) : Host.Outcome State Fault Refusal :=
  .next (if s.shelf.isSome then s else setRx c .hunt s)

/-- The link after its first owed reply has been sent (R179). -/
def linkAfterSent (l : Link) : Link :=
  match l.owed.drop 1 with
  | [] => { l with owed := [], service := none }
  | r :: rs => { l with owed := r :: rs }

/-- REPLY_SENT (R179): the next owed answer is sent or the link leaves service; the end of the OK reply to RESET brings
the craft reset (R182). -/
def execReplySent (c : Client) (s : State) : Host.Outcome State Fault Refusal :=
  let l := perGet s.links c
  if l.owed = [] then .next s
  else if c = .cr ∧ s.craftArmed then .next (craftResetNow s)
  else .next (setLink c (linkAfterSent l) s)

end Sys2Proof.Machine
end

