-- ==== Sys2Proof/Machine/OpticalEvents.lean ====
section
/-! DEFINITION. The events of the optical path: the switch, the engine's timers, the shot records, the end of an analysis,
the block writes, the laser fault (chapters 1 to 3 and 5). -/

namespace Sys2Proof.Machine

/-- SETTLED at a port (R1, R8): delivered when a move to that port ends. The switch stands there; the engine acts on it in
SWITCHING for the running route. -/
def execSettled (p : RouteNo) (s : State) : Host.Outcome State Fault Refusal :=
  if s.switch = .moving (.port p) then
    let s' : State := { s with switch := .standing (.port p) }
    .next (if s.engine.state = .switching ∧ s.engine.running.map Running.route = some p then startLiveCheck s' else s')
  else .next s

/-- HOME_REACHED (R1, R18): in RECOVERING, once the switch has been commanded, the engine goes to IDLE and the hand-out
follows. -/
def execHomeReached (s : State) : Host.Outcome State Fault Refusal :=
  if s.switch = .moving .home then
    let s' : State := { s with switch := .standing .home }
    .next (if s.engine.state = .recovering ∧ s.engine.timer.isSome then concludeIn .idle s' else s')
  else .next s

/-- SWITCH_STUCK (R9): the switch timer expires in SWITCHING. -/
def execSwitchStuck (s : State) : Host.Outcome State Fault Refusal :=
  .next (if s.engine.state = .switching then
    homeSwitch (finishEntry .switchStuck (some .switchStuck) none none s) else s)

/-- HOME_FAILED (R18): the switch timer expires in RECOVERING. -/
def execHomeFailed (s : State) : Host.Outcome State Fault Refusal :=
  .next (if s.engine.state = .recovering ∧ s.engine.timer.isSome then
    let s' := equipError .homeFailed none s
    { s' with engine := { s'.engine with state := .faulted, timer := none } } else s)

/-- LIVE_CHECK_EXPIRY (R10, R30): the reading becomes a level, is kept, and is judged against the live threshold. -/
def execLiveCheckExpiry (reading : Averaged) (s : State) : Host.Outcome State Fault Refusal :=
  match s.engine.running with
  | none => .next s
  | some run =>
    if s.engine.state = .liveCheck then
      let level := levelOf reading.val
      let s' : State := { s with front := { s.front with
        checking := false, record := some { level, route := run.route, acq := s.engine.acq } } }
      .next (if s.device.live < level then concludeIn .idle (finishEntry .liveLight none none none s')
        else startFiring run.settings.len s')
    else .next s

/-- SHOT_COMPLETE (R2, R11): a record of the running acquisition is added in FIRING, any other is discarded. -/
def execShotComplete (acq : Nat) (samples : List Sample) (s : State) : Host.Outcome State Fault Refusal :=
  match s.engine.running with
  | none => .next s
  | some run =>
    if s.engine.state = .firing ∧ s.engine.acq = acq then
      if samples.length ≠ run.settings.len then .refused .recordLength
      else
        let s' : State := { s with engine := { s.engine with
          acc := addShot s.engine.acc samples, shotCount := s.engine.shotCount + 1, timer := some .shot } }
        .next (if s'.engine.shotCount < shotTarget run.settings then s' else startAnalysing run s')
    else .next s

/-- ACQ_TIMEOUT (R12): the shot timer expires in FIRING. -/
def execAcqTimeout (s : State) : Host.Outcome State Fault Refusal :=
  .next (if s.engine.state = .firing then
    concludeIn .idle (finishEntry .acqTimeout (some .acqTimeout) none none (frontOff s)) else s)

/-- The trace buffer HELD and the accumulator used up at the end of an analysis (R25, R37). -/
def holdTrace (run : Running) (f : AnalysisFields) (cells : List TraceCell) (s : State) : State :=
  { s with
    trace := .held { acq := s.engine.acq, route := run.route, kind := run.kind, settings := run.settings } f.dzEff f.em cells
    engine := { s.engine with acc := [], held := some { fields := f, time := s.clock.now } } }

/-- ANALYSIS_COMPLETE (R13, R25, R33, R53, R54). -/
def execAnalysisComplete (s : State) : Host.Outcome State Fault Refusal :=
  if s.engine.state = .analysing then
    match s.engine.running, s.engine.analysis with
    | some run, some a =>
      let cells := traceCells (shotTarget run.settings) s.engine.acc
      let f := analysisFields run.settings a.judging cells
      let h : HeldAnalysis := { fields := f, time := s.clock.now }
      let s' := holdTrace run f cells s
      .next (match run.kind with
        | .check =>
          match a.base with
          | none => concludeIn (stateAfterStage s) (finishEntry .noBaseline none (some h) none s')
          | some b =>
            let j := judge run.settings a.judging f.dzEff f.em cells (listLevels s.store.mem b.blocks) b.eb
            concludeIn (stateAfterStage s) (finishEntry .judged none (some h) (some j) s')
        | .capture =>
          if f.em < f.dzEff + 2 * a.judging.width then
            concludeIn (stateAfterStage s) (finishEntry .noFibre none (some h) none s')
          else startWrite 0 { s' with engine := { s'.engine with state := .committing } })
    | _, _ => .next s
  else .next s

/-- A write that completed good leaves its levels in the block (R88, R89). -/
def writeDone (b : Nat) (data : List Nat) (s : State) : State :=
  { s with store := { s.store with mem := writeBlock b data s.store.mem } }

/-- A write that a reset cut off has ended: the trace buffer is EMPTY from now on (R40), and the homing that waited for the
write is made (R24). -/
def cutOffEnds (s : State) : State := resumeHoming { s with trace := .empty }

/-- BLOCK_WRITE_GOOD (R14, R90, R91, and R96 for a write that a reset cut off). -/
def execBlockWriteGood (s : State) : Host.Outcome State Fault Refusal :=
  match s.store.resv with
  | none => .next s
  | some r =>
    match writingBlock r with
    | none => .next s
    | some (w, b, data) =>
      let s' := writeDone b data s
      if s.engine.state = .committing then
        match s.engine.running, s.engine.held with
        | some run, some h =>
          .next (if w + 1 < r.blocks.length then startWrite (w + 1) s'
            else concludeIn (stateAfterStage s) (finishEntry .captured none (some h) none (commitCapture run r h s')))
        | _, _ => .next s
      else
        .next (cutOffEnds { s' with store := { s'.store with free := giveBack r.blocks s'.store.free, resv := none } })

/-- A write that completed failed: its block joins the bad set and holds free values, the rest of the reservation is
free (R92; assumption 7). -/
def writeLost (r : Reservation) (b : Nat) (s : State) : State :=
  { s with
    store := { free := giveBack (r.blocks.filter (· != b)) s.store.free
               bad := insertNumber b s.store.bad
               resv := none
               mem := writeBlock b (spoiltBlock s.freeCount) s.store.mem }
    freeCount := s.freeCount + 1 }

/-- BLOCK_WRITE_FAILED (R15, R92, and R96 for a write that a reset cut off). -/
def execBlockWriteFailed (s : State) : Host.Outcome State Fault Refusal :=
  match s.store.resv with
  | none => .next s
  | some r =>
    match writingBlock r with
    | none => .next s
    | some (_, b, _) =>
      let s' := writeLost r b s
      .next (if s.engine.state = .committing then
        concludeIn (stateAfterStage s) (finishEntry .storeError (some .storeWriteFail) s.engine.held none s')
      else cutOffEnds s')

/-- LASER_FAULT_SIGNAL (R19). -/
def execLaserFaultSignal (s : State) : Host.Outcome State Fault Refusal :=
  .next (laserFault { s with front := { s.front with fault := true } })

/-- LASER_FAULT_ENDS (R19): the front end no longer detects the fault. -/
def execLaserFaultEnds (s : State) : Host.Outcome State Fault Refusal :=
  .next { s with front := { s.front with fault := false } }

end Sys2Proof.Machine
end

