-- ==== Sys2Proof/Machine/ResetEvents.lean ====
section
/-! DEFINITION. The resets: CRAFT_RESET, SHELF_RESET, SHELF_RESET_RELEASE, POWER_ON (R24, R96, R97, R126, R136, R157, R158,
R168, R175, R181 to R183). -/

namespace Sys2Proof.Machine

/-- CRAFT_RESET (R182): the reset takes effect; while the shelf reset line holds the card no craft reset can come. -/
def execCraftReset (s : State) : Host.Outcome State Fault Refusal :=
  .next (if s.shelf.isSome then s else craftResetNow s)

/-- SHELF_RESET (R181): the line becomes active. A line that is active already makes no event. -/
def execShelfReset (s : State) : Host.Outcome State Fault Refusal :=
  .next (if s.shelf.isSome then s else { beginReset s with shelf := some .shelfReset })

/-- SHELF_RESET_RELEASE (R181, R183): the line is released, and the reset that it held ends. -/
def execShelfResetRelease (s : State) : Host.Outcome State Fault Refusal :=
  .next (match s.shelf with
    | none => s
    | some k => endReset k s)

/-- POWER_ON (R183): with the shelf reset line active, the card is held until the line is released. -/
def execPowerOn (s : State) : Host.Outcome State Fault Refusal :=
  .next (if s.shelf.isSome then { powerLoss s with shelf := some .powerOn } else endReset .powerOn (powerLoss s))

end Sys2Proof.Machine
end

