-- ==== Sys2Proof/Machine/Dispatch.lean ====
section
/-! DEFINITION. One arm per command, each a call of its meaning. -/

namespace Sys2Proof.Machine

def exec (i : Instr) (s : State) : Host.Outcome State Fault Refusal :=
  match i with
  | .test c tag route kind cls => Sys2Proof.Machine.execTest c tag route kind cls s
  | .cancel c tag id => Sys2Proof.Machine.execCancel c tag id s
  | .mark c tag => Sys2Proof.Machine.execMark c tag s
  | .readQueue c tag start => Sys2Proof.Machine.execReadQueue c tag start s
  | .defineRoute c tag route rev d => Sys2Proof.Machine.execDefineRoute c tag route rev d s
  | .deleteRoute c tag route rev => Sys2Proof.Machine.execDeleteRoute c tag route rev s
  | .readRoute c tag route => Sys2Proof.Machine.execReadRoute c tag route s
  | .readResult c tag route first => Sys2Proof.Machine.execReadResult c tag route first s
  | .readTrace c tag acq offset count => Sys2Proof.Machine.execReadTrace c tag acq offset count s
  | .readBaseline c tag route offset count expected => Sys2Proof.Machine.execReadBaseline c tag route offset count expected s
  | .hold c tag route => Sys2Proof.Machine.execHold c tag route s
  | .release c tag route => Sys2Proof.Machine.execRelease c tag route s
  | .clearHolds c tag route => Sys2Proof.Machine.execClearHolds c tag route s
  | .setWindow c tag w d => Sys2Proof.Machine.execSetWindow c tag w d s
  | .readWindow c tag w => Sys2Proof.Machine.execReadWindow c tag w s
  | .setClock c tag day hour minute start => Sys2Proof.Machine.execSetClock c tag day hour minute start s
  | .startClock c tag => Sys2Proof.Machine.execStartClock c tag s
  | .stopClock c tag => Sys2Proof.Machine.execStopClock c tag s
  | .readClock c tag => Sys2Proof.Machine.execReadClock c tag s
  | .setNotices c tag p => Sys2Proof.Machine.execSetNotices c tag p s
  | .readNotices c tag => Sys2Proof.Machine.execReadNotices c tag s
  | .ackNotices c tag a => Sys2Proof.Machine.execAckNotices c tag a s
  | .readLog c tag => Sys2Proof.Machine.execReadLog c tag s
  | .setDevice c tag p => Sys2Proof.Machine.execSetDevice c tag p s
  | .readDevice c tag => Sys2Proof.Machine.execReadDevice c tag s
  | .readEquipment c tag => Sys2Proof.Machine.execReadEquipment c tag s
  | .clearEquipment c tag => Sys2Proof.Machine.execClearEquipment c tag s
  | .resetRequest c tag => Sys2Proof.Machine.execResetRequest c tag s
  | .characterReceived c b => Sys2Proof.Machine.execCharacterReceived c b s
  | .framingError c => Sys2Proof.Machine.execFramingError c s
  | .gapTimerExpiry c => Sys2Proof.Machine.execGapTimerExpiry c s
  | .replySent c => Sys2Proof.Machine.execReplySent c s
  | .craftReset => Sys2Proof.Machine.execCraftReset s
  | .shelfReset => Sys2Proof.Machine.execShelfReset s
  | .shelfResetRelease => Sys2Proof.Machine.execShelfResetRelease s
  | .powerOn => Sys2Proof.Machine.execPowerOn s
  | .settled port => Sys2Proof.Machine.execSettled port s
  | .homeReached => Sys2Proof.Machine.execHomeReached s
  | .switchStuck => Sys2Proof.Machine.execSwitchStuck s
  | .homeFailed => Sys2Proof.Machine.execHomeFailed s
  | .liveCheckExpiry reading => Sys2Proof.Machine.execLiveCheckExpiry reading s
  | .shotComplete acq samples => Sys2Proof.Machine.execShotComplete acq samples s
  | .acqTimeout => Sys2Proof.Machine.execAcqTimeout s
  | .analysisComplete => Sys2Proof.Machine.execAnalysisComplete s
  | .blockWriteGood => Sys2Proof.Machine.execBlockWriteGood s
  | .blockWriteFailed => Sys2Proof.Machine.execBlockWriteFailed s
  | .laserFaultSignal => Sys2Proof.Machine.execLaserFaultSignal s
  | .pulseTimerExpiry c => Sys2Proof.Machine.execPulseTimerExpiry c s
  | .tick => Sys2Proof.Machine.execTick s
  | .minuteRollover => Sys2Proof.Machine.execMinuteRollover s
  | .windowCountExpiry w => Sys2Proof.Machine.execWindowCountExpiry w s
  | .laserFaultEnds => Sys2Proof.Machine.execLaserFaultEnds s

end Sys2Proof.Machine
end

