-- ==== Sys2Proof/Machine/Frames.lean ====
section
/-! DEFINITION. The bytes of a reply frame (R184, Tables 11-2 to 11-8). State holds each reply by its fields; this is the
frame that is sent for it. -/

namespace Sys2Proof.Machine

/-! ### Codes (Tables 11-2 and 11-8) -/

def statusCode : Status → Nat
  | .ok => 0x00
  | .okClamped => 0x01
  | .busy => 0x02
  | .notPermitted => 0x03
  | .badRequest => 0x04
  | .badValue => 0x05
  | .noRoute => 0x06
  | .stale => 0x07
  | .held => 0x08
  | .barred => 0x09
  | .queueFull => 0x0A
  | .routeBusy => 0x0B
  | .notRequester => 0x0C
  | .notHeld => 0x0D
  | .clockRunning => 0x0E
  | .marksFull => 0x0F
  | .noEntry => 0x10

def kindCode : TestKind → Nat
  | .check => 1
  | .capture => 2

def classCode : TestClass → Nat
  | .urgent => 1
  | .routine => 2

def outcomeCode : TestOutcome → Nat
  | .judged => 1
  | .noBaseline => 2
  | .captured => 3
  | .noFibre => 4
  | .storeFull => 5
  | .liveLight => 6
  | .switchStuck => 7
  | .acqTimeout => 8
  | .laserFault => 9
  | .storeError => 10
  | .cancelled => 11
  | .routeDeleted => 12

def conditionCode : Condition → Nat
  | .unknown => 1
  | .clear => 2
  | .degraded => 3
  | .bend => 4
  | .broken => 5

def breakCode : BreakKind → Nat
  | .near => 1
  | .reflective => 2
  | .nonReflective => 3

def causeCode : CloseCause → Nat
  | .expired => 1
  | .edited => 2
  | .clockStopped => 3

def equipCode : EquipKind → Nat
  | .switchStuck => 1
  | .homeFailed => 2
  | .acqTimeout => 3
  | .laserFault => 4
  | .storeWriteFail => 5

def resetCode : ResetKind → Nat
  | .powerOn => 1
  | .shelfReset => 2
  | .craftReset => 3

def clientCode (c : Client) : Nat := bitOf c + 1

def routeChangeCode : RouteChange → Nat
  | .defined => 1
  | .deleted => 2

def clockChangeCode : ClockChange → Nat
  | .set => 3
  | .started => 4
  | .stopped => 5

def engineCode : EngineState → Nat
  | .idle => 1
  | .switching => 2
  | .liveCheck => 3
  | .firing => 4
  | .analysing => 5
  | .committing => 6
  | .recovering => 7
  | .faulted => 8

def statusOfRouteCode : RouteStatus → Nat
  | .unused => 1
  | .defined => 2
  | .baselined => 3

def eligibilityCode : Eligibility → Nat
  | .eligible => 1
  | .held => 2
  | .barred => 3
  | .noWindow => 4

def runCode (running : Bool) : Nat := if running then 1 else 2

def faultModeCode : FaultMode → Nat
  | .off => 1
  | .raise => 2
  | .clear => 3
  | .both => 4

def clearModeCode : ClearMode → Nat
  | .onRead => 1
  | .onAck => 2

def lineModeCode : LineMode → Nat
  | .level => 1
  | .pulse => 2

def polarityCode : Polarity → Nat
  | .activeLow => 1
  | .activeHigh => 2

/-! ### Common parts -/

def bytesTime (t : Time) : List Byte := bytes2 t.day ++ bytes1 t.hour ++ bytes1 t.minute ++ bytes1 t.second

/-- A set of at most 8 members in one byte. -/
def bytesSet {n : Nat} (s : BitVec n) : List Byte := [s.setWidth 8]

/-- A signed value in two bytes, two's complement. -/
def bytesSigned (x : Int) : List Byte := bytes2 (x % 65536).toNat

def targetByte : SwitchTarget → Nat
  | .home => 0xFF
  | .port p => p

/-- A switch position (Table 11-8). An unknown position is never sent: no request is taken before the switch is
commanded (R183). -/
def bytesSwitch : SwitchPos → List Byte
  | .standing t => bytes1 1 ++ bytes1 (targetByte t)
  | .moving t => bytes1 2 ++ bytes1 (targetByte t)
  | .unknown => []

def bytesAcq (a : AcqSettings) : List Byte :=
  bytes1 a.pulse ++ bytes1 a.spacing ++ bytes2 a.len ++ bytes1 a.shots ++ bytes2 a.index

def bytesJudging (j : Judging) : List Byte :=
  bytes2 j.dead ++ bytes1 j.width ++ bytes2 j.tLoss ++ bytes2 j.tTotal ++ bytes1 j.tEnd ++ bytes2 j.tReflect
    ++ bytes2 j.floor ++ bytes1 j.confirm

def bytesWindow (w : WindowSettings) : List Byte :=
  bytesBool w.enabled ++ bytes1 w.hour ++ bytes1 w.minute ++ bytesSet w.factors ++ bytesSet w.weekdays
    ++ bytes2 w.duration ++ bytesRoutes w.routes

/-- A window's state and its remaining minutes; the state has no code in the manual (assumption 6). -/
def bytesRemaining (r : Option Nat) : List Byte := [Config.windowStateCode r.isSome] ++ bytesOpt bytes2 r

def bytesPending (p : Pending) (m : ClearMode) : List Byte :=
  bytesRoutes p.faults ++ [flagsByte p.done p.window p.equip p.log] ++ bytesSet p.marks ++ bytes1 (clearModeCode m)

def bytesNotices (n : NoticeSettings) (threshold : Nat) : List Byte :=
  bytes1 (faultModeCode n.faultMode) ++ bytesBool n.done ++ bytesBool n.window ++ bytesBool n.equip ++ bytesBool n.log
    ++ bytes1 (clearModeCode n.clearMode) ++ bytes1 (lineModeCode n.lineMode) ++ bytes1 (polarityCode n.polarity)
    ++ bytes1 n.pulseLen ++ bytes1 threshold

/-- One entry of a READ_QUEUE reply (R124). The state code tells which follows the requester set, the acquisition number of
a RUNNING entry or the eligibility of a WAITING one, so neither carries a presence byte: the model's choice
(assumption 36). -/
def bytesRow (q : QueueRow) : List Byte :=
  bytes1 q.position ++ bytes2 q.id ++ bytes1 q.route ++ bytes1 (kindCode q.kind) ++ bytes1 (classCode q.cls)
    ++ match q.standing with
       | .inl acq => bytes1 2 ++ bytesSet q.reqs ++ bytes2 acq
       | .inr e => bytes1 1 ++ bytesSet q.reqs ++ bytes1 (eligibilityCode e)

/-! ### Log entries (Table 11-5) -/

/-- The fields of a log entry from `route` on, each as Table 11-5 sends it, absent ones included. -/
structure LogFields where
  kind : Nat
  route : Nat := 0xFF
  id : Nat := 0
  testKind : Nat := 0
  outcome : Nat := 0
  cond : Nat := 0
  clients : Nat := 0
  window : Nat := 0xFF
  cause : Nat := 0
  error : Nat := 0
  reset : Nat := 0
  client : Nat := 0
  change : Nat := 0

def optCode {α : Type} (f : α → Nat) (absent : Nat) : Option α → Nat
  | none => absent
  | some a => f a

def logFields : LogBody → LogFields
  | .reset k => { kind := 1, reset := resetCode k }
  | .testDone r id k out reqs c =>
    { kind := 2, route := r, id, testKind := kindCode k, outcome := outcomeCode out, clients := 128 + reqs.toNat,
      client := optCode clientCode 0 c }
  | .faultChange r c t by_ =>
    { kind := 3, route := r, id := optCode Prod.fst 0 t, testKind := optCode (fun p => kindCode p.2) 0 t,
      cond := conditionCode c, client := optCode clientCode 0 by_ }
  | .windowOpen w => { kind := 4, window := w }
  | .windowClose w c => { kind := 5, window := w, cause := causeCode c }
  | .routeChange r c ch => { kind := 6, route := r, client := clientCode c, change := routeChangeCode ch }
  | .holdChange r c h => { kind := 7, route := r, client := clientCode c, clients := 128 + h.toNat }
  | .clock c ch => { kind := 8, client := clientCode c, change := clockChangeCode ch }
  | .equipment k r => { kind := 9, route := optCode Fin.val 0xFF r, error := equipCode k }

/-- A log entry as read: 21 bytes (Table 11-5). -/
def bytesLogEntry (e : LogEntry) : List Byte :=
  let f := logFields e.body
  bytes2 e.number ++ bytesTime e.time ++ bytes1 f.kind ++ bytes1 f.route ++ bytes2 f.id ++ bytes1 f.testKind
    ++ bytes1 f.outcome ++ bytes1 f.cond ++ bytes1 f.clients ++ bytes1 f.window ++ bytes1 f.cause ++ bytes1 f.error
    ++ bytes1 f.reset ++ bytes1 f.client ++ bytes1 f.change

/-! ### The two parts of READ_RESULT (Tables 11-6 and 11-7) -/

/-- A byte of presence bits, bit 0 first. -/
def presence (bs : List Bool) : List Byte := bytes1 (bs.foldr (fun b n => b.toNat + 2 * n) 0)

def bytesEvent (e : LossEvent) : List Byte := bytes2 e.index ++ bytes3 e.distance ++ bytes2 e.loss

/-- The event count, the number carried and the events carried, at most 8 from `first` on (R184). -/
def bytesEvents (first : Nat) (es : List LossEvent) : List Byte :=
  let carried := (es.drop first).take 8
  bytes1 es.length ++ bytes1 carried.length ++ carried.flatMap bytesEvent

def bytesBreak : Option Break → List Byte
  | some b => bytes1 (breakCode b.kind) ++ bytes3 b.distance
  | none => bytes1 0 ++ bytes3 0

/-- The loss events of a judgement, none where there is no judgement. -/
def judgedEvents : Option Judgement → List LossEvent
  | some j => j.events
  | none => []

/-- The test part (Table 11-6). A field whose presence bit is clear is sent as 0; that this goes before the 0xFFFF of an
absent first saturated index where the record has no analysis fields at all is the model's choice (assumption 33). -/
def bytesTestPart (first : Nat) : Option TestRecord → List Byte
  | none => [0]
  | some r =>
    let j := r.judgement
    let brk := j.bind Judgement.brk
    let excess := j.bind Judgement.excess
    bytes1 1 ++ bytes2 r.id ++ bytes2 r.acq ++ bytes1 (kindCode r.kind) ++ bytes1 (classCode r.cls) ++ bytesTime r.time
      ++ bytes1 (outcomeCode r.outcome) ++ bytes2 r.len
      ++ presence [r.fields.isSome, j.isSome, brk.isSome, j.any Judgement.more, j.any Judgement.longer, excess.isSome]
      ++ (match r.fields with
          | some f => bytes2 f.dzEff ++ bytes1 f.width ++ bytes2 f.em ++ bytes3 f.dEm ++ bytes2 f.satCount
              ++ bytes2 (f.firstSat.getD 0xFFFF)
          | none => List.replicate 12 0)
      ++ bytes1 (optCode (fun x => conditionCode x.cond) 0 j) ++ bytesBreak brk ++ bytesSigned (excess.getD 0)
      ++ bytesEvents first (judgedEvents j)

/-- The fault part (Table 11-7). An absent latest counted test, for which the table has neither a presence bit nor a value, is
sent as 0: the model's choice (assumption 19). -/
def bytesFaultPart (first : Nat) (p : FaultPart) : List Byte :=
  let f := p.record
  let id := f.adopting.bind Adopting.id
  presence [f.adopting.isSome, id.isSome, f.brk.isSome, f.events.isSome, f.events.any EventList.more, f.excess.isSome,
      p.candidate.isSome]
    ++ bytes1 (conditionCode f.cond) ++ bytesTime f.time ++ bytes2 (id.getD 0)
    ++ bytes1 (optCode (fun a => kindCode a.kind) 0 f.adopting) ++ bytes2 (optCode Adopting.acq 0 f.adopting)
    ++ bytes2 (f.latest.getD 0) ++ bytes2 f.agreeing ++ bytesBreak f.brk ++ bytesSigned (f.excess.getD 0)
    ++ bytes1 (optCode (fun c => conditionCode c.cond) 0 p.candidate) ++ bytes1 (optCode Candidate.agree 0 p.candidate)
    ++ bytes1 p.confirm
    ++ bytesEvents first (match f.events with
        | some l => l.events
        | none => [])

/-! ### Replies -/

/-- A clamped field's code and its stored value, in the bytes that hold the field's range (R66). -/
def bytesClamped (f : Nat × Nat) : List Byte :=
  bytes1 f.1 ++ if f.1 = 8 ∨ f.1 = 11 ∨ f.1 = 14 then bytes1 f.2 else bytes2 f.2

/-- The settings part of a READ_ROUTE reply (R76). The route status in the reply tells whether this part and its baseline
part are there, so neither carries a presence byte: the model's choice (assumption 35). -/
def bytesView (v : RouteView) : List Byte :=
  bytesOpt bytesLabel v.label ++ bytesAcq v.acq ++ bytesJudging v.judging ++ bytes2 v.span ++ bytes2 v.dzEff
    ++ match v.baseline with
       | some b => bytes1 b.blocks ++ bytes2 b.eb ++ bytes3 b.dEb ++ bytesTime b.time ++ bytes2 b.acq
       | none => []

/-- The pool summary (R99): the free count, the bad count, the size of the reservation, and behind a presence byte its route
and state. The state code tells whether the written count follows, which a HELD reservation has not, so that count carries
no presence byte of its own: the model's choice (assumption 38). -/
def bytesPool (p : PoolSummary) : List Byte :=
  bytes2 p.free ++ bytes2 p.bad ++ bytes1 p.resvSize
    ++ bytesOpt (fun (q : RouteNo × Option Nat) => bytes1 q.1 ++ match q.2 with
        | none => bytes1 1
        | some w => bytes1 2 ++ bytes1 w) p.resv

def bytesHead (h : BaselineHead) : List Byte :=
  bytes2 h.revision ++ bytes2 h.len ++ bytes2 h.eb ++ bytesTime h.time ++ bytes2 h.acq ++ bytes1 h.blocks

def bytesLive (r : LiveRecord) : List Byte := bytes2 r.level ++ bytes1 r.route ++ bytes2 r.acq

/-- The data bytes of a reply (R184). Where no table lays them out they are the model's choice: assumption 19, for a clock
reading assumption 34, for a READ_ROUTE reply assumption 35, for a READ_QUEUE reply assumption 36, for the pool summary
assumption 38. A READ_BASELINE reply of status NO_ROUTE or NO_ENTRY carries the revision before the pool summary, one of
status OK or STALE after it: the model's choice (assumption 39). -/
def bytesData : ReplyData → List Byte
  | .none => []
  | .test id word position => bytes2 id ++ bytes1 (if word = .new then 1 else 2) ++ bytes1 position
  | .testHeld h b => bytesSet h ++ bytesBool b
  | .testBarred range => bytesBarred range
  | .cancel reqs word => bytesSet reqs ++ bytes1 (if word = .kept then 1 else 2)
  | .mark n k => bytes1 n ++ bytes1 k
  | .queue count e rows marks =>
    bytes1 count ++ bytes1 (engineCode e) ++ rows.flatMap bytesRow ++ marks.flatMap fun m => bytes1 m.1 ++ bytes1 m.2
  | .field code => bytes1 code
  | .revision rev => bytes2 rev
  | .clamped fs rev => fs.flatMap bytesClamped ++ bytes2 rev
  | .route r st rev h barred running view =>
    bytes1 r ++ bytes1 (statusOfRouteCode st) ++ bytes2 rev ++ bytesSet h ++ bytesBool barred ++ bytesBool running
      ++ match view with
         | some v => bytesView v
         | none => []
  | .holds h => bytesSet h
  | .window w r => bytesWindow w ++ bytesRemaining r
  | .windowRead w r t running covered =>
    bytesWindow w ++ bytesRemaining r ++ bytesTime t ++ bytes1 (runCode running) ++ bytesRoutes covered
  | .clock t => bytesTime t
  | .clockRun t running => bytesTime t ++ bytes1 (runCode running)
  | .clockRead t weekday running => bytesTime t ++ bytes1 weekday ++ bytes1 (runCode running)
  | .noticeSettings n t => bytesNotices n t
  | .pending p m => bytesPending p m
  | .log overrun es unread oldest newest =>
    bytesBool overrun ++ bytes1 es.length ++ bytes2 unread ++ bytes2 oldest ++ bytes2 newest ++ es.flatMap bytesLogEntry
  | .device d r => bytes2 d.live ++ bytes1 d.timeout ++ bytesBarred d.barred ++ bytesOpt bytesLive r
  | .equipment e st acq p =>
    bytesBool e.isSome
      ++ bytesOpt (fun k => bytes1 (equipCode k)) (e.map EquipError.kind)
      ++ bytesOpt (fun (r : RouteNo) => bytes1 r) (e.bind EquipError.route)
      ++ bytesOpt bytesTime (e.map EquipError.time)
      ++ bytesBool (e.bind EquipError.latest).isSome
      ++ bytesOpt (fun k => bytes1 (equipCode k)) (e.bind EquipError.latest)
      ++ bytes1 (engineCode st) ++ bytes2 acq ++ bytesSwitch p
  | .result first r f => bytesTestPart first r ++ bytesFaultPart first f
  | .trace l dz em count firstSat offset cells =>
    bytes2 l.acq ++ bytes1 l.route ++ bytes1 (kindCode l.kind) ++ bytes2 l.settings.len ++ bytes1 l.settings.pulse
      ++ bytes1 l.settings.spacing ++ bytes2 l.settings.index ++ bytes2 dz ++ bytes2 em ++ bytes2 count
      ++ bytesOpt bytes2 firstSat ++ bytes2 offset ++ bytes1 cells.length
      ++ cells.flatMap fun c => bytes2 (c.level + if c.sat then 32768 else 0)
  | .traceStale acq => bytesOpt bytes2 acq
  | .baseline p h offset levels =>
    bytesPool p ++ bytesHead h ++ bytes2 offset ++ bytes1 levels.length ++ levels.flatMap bytes2
  | .baselineStale p h => bytesPool p ++ bytesHead h
  | .baselineNone rev p => bytes2 rev ++ bytesPool p

/-- The frame of a reply (Table 11-4). -/
def replyFrame (r : Reply) : List Byte := frameBytes (r.tag :: BitVec.ofNat 8 (statusCode r.status) :: bytesData r.data)

end Sys2Proof.Machine
end

