-- ==== Sys2Proof/WellFormed.lean ====
section
/-! DEFINITION. The well-formed commands: a request whose numbers fit the bytes R184 gives their fields (so that a frame can
carry it), and a shot record of a length some route can have (R2, Table 4-1). -/

namespace Sys2Proof

/-- The number fits one byte of a frame (R184). -/
def fits1 (n : Nat) : Bool := decide (n < 256)

/-- The number fits two bytes of a frame (R184). -/
def fits2 (n : Nat) : Bool := decide (n < 65536)

/-- An absent part fits; a present one fits when its number does. -/
def fitsOpt (f : Nat → Bool) : Option Nat → Bool
  | none => true
  | some n => f n

/-- A label is a character count in one byte and that many one-byte characters (Table 11-8). -/
def RouteDef.labelFits (d : RouteDef) : Bool :=
  match d.label with
  | none => true
  | some cs => fits1 cs.length && cs.all fits1

def RouteDef.wellFormed (d : RouteDef) : Bool :=
  d.labelFits && fits1 d.pulse && fits1 d.spacing && fits2 d.len && fits1 d.shots && fits2 d.index
    && fits2 d.dead && fits1 d.width && fits2 d.tLoss && fits2 d.tTotal && fits1 d.tEnd && fits2 d.tReflect
    && fits2 d.floor && fits1 d.confirm

def WindowDef.wellFormed (d : WindowDef) : Bool :=
  fits1 d.enabled && fits1 d.hour && fits1 d.minute && fits2 d.duration

def NoticeParts.wellFormed (p : NoticeParts) : Bool :=
  fitsOpt fits1 p.faultMode && fitsOpt fits1 p.done && fitsOpt fits1 p.window && fitsOpt fits1 p.equip
    && fitsOpt fits1 p.log && fitsOpt fits1 p.clearMode && fitsOpt fits1 p.lineMode && fitsOpt fits1 p.polarity
    && fitsOpt fits1 p.pulseLen && fitsOpt fits1 p.threshold

def DeviceParts.wellFormed (p : DeviceParts) : Bool :=
  fitsOpt fits2 p.live && fitsOpt fits1 p.timeout
    && match p.barred with
       | some (some (a, b)) => fits1 a && fits1 b
       | _ => true

/-- Every number of the request fits the bytes its field has in a frame. -/
def Request.wellFormed : Request → Bool
  | .test route kind cls => fits1 route && fits1 kind && fits1 cls
  | .cancel id => fits2 id
  | .readQueue start => fits1 start
  | .defineRoute route rev d => fits1 route && fits2 rev && d.wellFormed
  | .deleteRoute route rev => fits1 route && fits2 rev
  | .readRoute route => fits1 route
  | .readResult route first => fits1 route && fitsOpt fits1 first
  | .readTrace acq offset count => fits2 acq && fits2 offset && fits1 count
  | .readBaseline route offset count expected =>
      fits1 route && fits2 offset && fits1 count && fitsOpt fits2 expected
  | .hold route => fits1 route
  | .release route => fits1 route
  | .clearHolds route => fits1 route
  | .setWindow w d => fits1 w && d.wellFormed
  | .readWindow w => fits1 w
  | .setClock day hour minute _ => fits2 day && fits1 hour && fits1 minute
  | .setNotices p => p.wellFormed
  | .setDevice p => p.wellFormed
  | .mark | .startClock | .stopClock | .readClock | .readNotices | .ackNotices _ | .readLog | .readDevice
  | .readEquipment | .clearEquipment | .reset => true

/-- The length of a shot record: 1,024..32,768 samples, a multiple of 1,024 (R2, Table 4-1). -/
def traceLength (n : Nat) : Bool := decide (1024 ≤ n) && decide (n ≤ 32768) && decide (n % 1024 = 0)

/-- The well-formed commands. -/
def Instr.wellFormed : Instr → Bool
  | .test _ _ route kind cls => (Request.test route kind cls).wellFormed
  | .cancel _ _ id => (Request.cancel id).wellFormed
  | .readQueue _ _ start => (Request.readQueue start).wellFormed
  | .defineRoute _ _ route rev d => (Request.defineRoute route rev d).wellFormed
  | .deleteRoute _ _ route rev => (Request.deleteRoute route rev).wellFormed
  | .readRoute _ _ route => (Request.readRoute route).wellFormed
  | .readResult _ _ route first => (Request.readResult route first).wellFormed
  | .readTrace _ _ acq offset count => (Request.readTrace acq offset count).wellFormed
  | .readBaseline _ _ route offset count e => (Request.readBaseline route offset count e).wellFormed
  | .hold _ _ route => (Request.hold route).wellFormed
  | .release _ _ route => (Request.release route).wellFormed
  | .clearHolds _ _ route => (Request.clearHolds route).wellFormed
  | .setWindow _ _ w d => (Request.setWindow w d).wellFormed
  | .readWindow _ _ w => (Request.readWindow w).wellFormed
  | .setClock _ _ day hour minute start => (Request.setClock day hour minute start).wellFormed
  | .setNotices _ _ p => (Request.setNotices p).wellFormed
  | .setDevice _ _ p => (Request.setDevice p).wellFormed
  | .shotComplete acq samples => fits2 acq && traceLength samples.length
  | .mark _ _ | .startClock _ _ | .stopClock _ _ | .readClock _ _ | .readNotices _ _ | .ackNotices _ _ _
  | .readLog _ _ | .readDevice _ _ | .readEquipment _ _ | .clearEquipment _ _ | .resetRequest _ _ => true
  | .characterReceived _ _ | .framingError _ | .gapTimerExpiry _ | .replySent _ => true
  | .craftReset | .shelfReset | .shelfResetRelease | .powerOn => true
  | .settled _ | .homeReached | .switchStuck | .homeFailed | .liveCheckExpiry _ | .acqTimeout
  | .analysisComplete | .blockWriteGood | .blockWriteFailed | .laserFaultSignal => true
  | .pulseTimerExpiry _ | .tick | .minuteRollover | .windowCountExpiry _ | .laserFaultEnds => true

end Sys2Proof
end

