-- ==== Sys2Proof/Safety.lean ====
section
/-! DEFINITION. The words the statements are written in: a link that takes a request, a request answered, the characters of
a frame received one after another, and the laws of the manual that every step keeps. -/

namespace Sys2Proof.Machine

/-! ### Requests and replies -/

/-- A good frame completed on the link of `c` now is taken as a request: the card is not held by the shelf reset line
and the link has no request in service (R179, R181). -/
def Ready (c : Client) (s : State) : Prop := s.shelf = none ∧ (perGet s.links c).service = none

/-- `s` with the request `code` of tag `tag` in service on the link of `c` and its reply owed (R179). Nothing else
differs from `s`. -/
def replied (c : Client) (tag : Byte) (code : Nat) (st : Status) (d : ReplyData) (s : State) : State :=
  let l : Link :=
    { rx := (perGet s.links c).rx
      service := some { tag := tag, code := code }
      owed := (perGet s.links c).owed ++ [{ tag := tag, status := st, data := d }] }
  { s with links := perSet s.links c l }

/-- The characters `bs` received one after another on the link of `c`. -/
def receiveAll (c : Client) : List Byte → State → Host.Outcome State Fault Refusal
  | [], s => .next s
  | b :: bs, s =>
    match exec (.characterReceived c b) s with
    | .next t => receiveAll c bs t
    | .fault r => .fault r
    | .refused r => .refused r

/-- `s` with the link of `c` at `l`. Nothing else differs from `s`. -/
def withLink (c : Client) (l : Link) (s : State) : State := { s with links := perSet s.links c l }

/-- `s` with the receive assembly of the link of `c` at `a` (R177). Nothing else differs from `s`. -/
def withRx (c : Client) (a : Assembly) (s : State) : State := withLink c { perGet s.links c with rx := a } s

/-- `s` with the notices of the client `c` at `n`. Nothing else differs from `s`. -/
def withNotice (c : Client) (n : NoticeState) (s : State) : State := { s with notices := perSet s.notices c n }

/-- `s` with the log reader of the client `c` at `r`. Nothing else differs from `s`. -/
def withReader (c : Client) (r : LogReader) (s : State) : State :=
  { s with log := { s.log with readers := perSet s.log.readers c r } }

/-- The raises `ks` taken one after another by one client's notices (R161). -/
def raisesOf (ks : List Notice) (n : NoticeState) : NoticeState := ks.foldl (fun n k => raiseNotice k n) n

/-- The LOG raise that one write to `l` makes to the client, if it makes one (R173). -/
def logRaise (l : ResultLog) (c : Client) : List Notice := if reachesThreshold l c then [.log] else []

/-- The LOG raises that the writes `bs` at time `t` to `l` make to the client, in their order (R173). -/
def logRaises (t : Time) : List LogBody → ResultLog → Client → List Notice
  | [], _, _ => []
  | b :: bs, l, c => logRaise l c ++ logRaises t bs (logAfterWrite t b l) c

/-- The raises that the entries `es` make to the client as they leave the queue one after another with outcome `out` at time
`t`, the log standing at `l` and the client's marks at `ms`: for each the LOG raise of its TEST_DONE entry, DONE to its
requesters, and MARK for the marks it completes (R119, R123, R173). -/
def leaveRaises (t : Time) (out : TestOutcome) (c : Client) : List Entry → ResultLog → List Mark → List Notice
  | [], _, _ => []
  | e :: es, l, ms =>
    logRaise l c ++ (if has e.reqs (bitOf c) then [.done] else []) ++ (completedMarks e.id ms).map Notice.mark
      ++ leaveRaises t out c es (logAfterWrite t (.testDone e.route e.id e.kind out e.reqs none) l) (keptMarks e.id ms)

/-- The raises that the loss of the id `id` from its marks makes to the client (R123). -/
def markRaises (id : Nat) (s : State) (c : Client) : List Notice :=
  (completedMarks id (perGet s.queue.marks c)).map Notice.mark

/-- The engine neither takes an entry nor gives one up on a stop order: it is in ANALYSING, COMMITTING, RECOVERING or
FAULTED (R17, R110). -/
def EngineFixed (s : State) : Prop := s.engine.state ≠ .idle ∧ canStop s.engine.state = false

/-- No entry of the queue is eligible (R109). -/
def NoneEligible (s : State) : Prop := ∀ e ∈ s.queue.entries, isEligible s e = false

/-- `u` holds the log of `s` with the entries `bs` written at time `t`, in that order (R169, R171). -/
def LoggedAt (t : Time) (s u : State) (bs : List LogBody) : Prop :=
  u.log = bs.foldl (fun l b => logAfterWrite t b l) s.log

/-- The Equipment Record after an error of kind `k` and route `r` at time `t` (R21). -/
def recordAfter (k : EquipKind) (r : Option RouteNo) (t : Time) : Option EquipError → EquipError
  | none => { kind := k, route := r, time := t, latest := none }
  | some e => { e with latest := some k }

/-- A HELD reservation returned whole: its blocks are free and it is NONE; otherwise free pool and reservation stand as
they are (R93). The bad set and the blocks' contents stand. -/
def ReservationReturned (s t : State) : Prop :=
  t.store.bad = s.store.bad ∧ t.store.mem = s.store.mem
    ∧ match s.store.resv with
      | none => t.store.resv = none ∧ t.store.free = s.store.free
      | some r =>
        match r.phase with
        | .held => t.store.resv = none ∧ ∀ b, b ∈ t.store.free ↔ b ∈ r.blocks ∨ b ∈ s.store.free
        | .writing _ _ => t.store.resv = some r ∧ t.store.free = s.store.free

/-- The running entry `e`, recorded by the engine as `run`, has finished with outcome `out`, equipment error `err` and test
record `rec`: the error is recorded, logged and noticed, the record replaces the route's, the entry has left the queue with its
TEST_DONE entry, DONE raises and marks (R16, R21, R56, R57, R119, R123). The notices are given raise by raise. -/
def Finished (run : Running) (e : Entry) (out : TestOutcome) (err : Option EquipKind) (rec : TestRecord)
    (s t : State) : Prop :=
  let errs : List LogBody := err.toList.map fun k => .equipment k (some run.route)
  let l1 := errs.foldl (fun l b => logAfterWrite s.clock.now b l) s.log
  t.queue.entries = s.queue.entries.filter (fun x => x.id != run.id)
    ∧ t.queue.counter = s.queue.counter
    ∧ (∀ c, perGet t.queue.marks c = keptMarks run.id (perGet s.queue.marks c))
    ∧ t.records = s.records.set run.route (some rec)
    ∧ t.equip = (match err with
        | none => s.equip
        | some k => some (recordAfter k (some run.route) s.clock.now s.equip))
    ∧ LoggedAt s.clock.now s t (errs ++ [.testDone run.route run.id run.kind out e.reqs none])
    ∧ ∀ c, perGet t.notices c = raisesOf
        ((if err.isSome then logRaise s.log c ++ [.equip] else []) ++ logRaise l1 c
          ++ (if has e.reqs (bitOf c) then [.done] else []) ++ markRaises run.id s c) (perGet s.notices c)

/-- The engine with no running entry, in state `st` with the timer `tm`; the acquisition number stays (R5, R16). That its shot
count is 0 is the model's choice (log entry 37): a statement with this word rests on it there. -/
def engineFree (st : EngineState) (tm : Option EngineTimer) (e : Engine) : Engine :=
  { state := st, running := none, acq := e.acq, shotCount := 0, acc := [], timer := tm, marker := false,
    analysis := none, held := none }

/-! ### The port (R104, R110, R112 to R116) -/

/-- `id` is the first value from `n` on, 65535 being followed by 1, that no entry of `es` holds (R104). -/
def FirstFree (es : List Entry) (n id : Nat) : Prop :=
  ∃ k, id = (n - 1 + k) % 65535 + 1 ∧ (∀ e ∈ es, e.id ≠ id) ∧ ∀ j, j < k → ∃ e ∈ es, e.id = (n - 1 + j) % 65535 + 1

/-- `e` is the first eligible entry in queue order (R110). -/
def FirstEligible (pre : List Entry) (e : Entry) (post : List Entry) (s : State) : Prop :=
  s.queue.entries = pre ++ e :: post ∧ isEligible s e = true ∧ ∀ x ∈ pre, isEligible s x = false

/-- The free pool has the blocks that the take of `e` needs: none for a CHECK (R7, R87). -/
def HasBlocks (e : Entry) (b : RouteBody) (s : State) : Prop := e.kind = .capture → b.acq.len / 1024 ≤ s.store.free.length

/-- The Baseline Store after the take of `e`: a capture holds the lowest-numbered free blocks (R86, R87). -/
def storeTaken (e : Entry) (b : RouteBody) (s : State) : Store :=
  match e.kind with
  | .check => s.store
  | .capture =>
    { free := s.store.free.drop (b.acq.len / 1024), bad := s.store.bad, mem := s.store.mem
      resv := some { route := e.route, acq := (s.engine.acq + 1) % 65536, blocks := s.store.free.take (b.acq.len / 1024)
                     phase := .held } }

/-- `t` is `s` with the entry `e`, which stands between `pre` and `post`, taken by the IDLE engine under the next acquisition
number: the switch is sent to its port, or the live check starts where it stands there already (R1, R5 to R8, R110). -/
def Taken (pre : List Entry) (e : Entry) (post : List Entry) (b : RouteBody) (s t : State) : Prop :=
  ∀ acq queue engine, acq = (s.engine.acq + 1) % 65536 →
    queue = { s.queue with entries := pre ++ { e with running := some acq } :: post } →
    engine = { s.engine with
      acq := acq, shotCount := 0
      running := some { id := e.id, route := e.route, kind := e.kind, cls := e.cls, settings := b.acq } } →
    (s.switch ≠ .standing (.port e.route) →
      t = { s with
        queue := queue, store := storeTaken e b s, switch := .moving (.port e.route)
        engine := { engine with state := .switching, timer := some (.switch (timeoutMs s.device.timeout)) } })
    ∧ (s.switch = .standing (.port e.route) →
      t = { s with
        queue := queue, store := storeTaken e b s, front := { s.front with checking := true }
        engine := { engine with state := .liveCheck, timer := some .liveCheck } })

/-- `t` is `s` with the capture `e`, which stands between `pre` and `post`, finished STORE_FULL within its take (R7, R57,
R119). -/
def FinishedShort (pre : List Entry) (e : Entry) (post : List Entry) (b : RouteBody) (s t : State) : Prop :=
  t = { s with
      engine := { s.engine with acq := (s.engine.acq + 1) % 65536 }, queue := t.queue, log := t.log, notices := t.notices
      records := s.records.set e.route (some
        { id := e.id, acq := (s.engine.acq + 1) % 65536, kind := .capture, cls := e.cls, time := s.clock.now
          outcome := .storeFull, len := b.acq.len, fields := none, judgement := none }) }
    ∧ t.queue.entries = pre ++ post ∧ t.queue.counter = s.queue.counter
    ∧ (∀ c, perGet t.queue.marks c = keptMarks e.id (perGet s.queue.marks c))
    ∧ LoggedAt s.clock.now s t [.testDone e.route e.id .capture .storeFull e.reqs none]
    ∧ ∀ c, perGet t.notices c = raisesOf
        (logRaise s.log c ++ (if has e.reqs (bitOf c) then [.done] else []) ++ markRaises e.id s c) (perGet s.notices c)

/-- R110, the hand-out: nothing while the engine is not IDLE or no entry is eligible; else the first eligible entry is taken,
and a capture that finds the pool short finishes at once and the hand-out is made again. -/
inductive HandsOut : State → State → Prop where
  | nothing {s : State} (h : s.engine.state = .idle → NoneEligible s) : HandsOut s s
  | take {s t : State} {pre post : List Entry} {e : Entry} {b : RouteBody} (idle : s.engine.state = .idle)
      (first : FirstEligible pre e post s) (body : s.routes[e.route].body = some b) (blocks : HasBlocks e b s)
      (taken : Taken pre e post b s t) : HandsOut s t
  | short {s u t : State} {pre post : List Entry} {e : Entry} {b : RouteBody} (idle : s.engine.state = .idle)
      (first : FirstEligible pre e post s) (body : s.routes[e.route].body = some b) (blocks : ¬HasBlocks e b s)
      (finished : FinishedShort pre e post b s u) (again : HandsOut u t) : HandsOut s t

/-- `t` is `s` with the acquisition of the RUNNING entry `e` ended on a stop order: the laser off, a held reservation returned,
the engine IDLE, and `e` WAITING again in its place; where a WAITING twin stands in the queue, the earlier of the two absorbs
the other (R17, R112, R113). -/
def GivenUp (e : Entry) (s t : State) : Prop :=
  t = { s with
      front := { s.front with laser := false, checking := false }, engine := engineFree .idle none s.engine
      queue := t.queue, store := t.store }
    ∧ ReservationReturned s t ∧ t.queue.counter = s.queue.counter
    ∧ ((∀ x ∈ s.queue.entries, isWaiting x = true → ¬(x.route = e.route ∧ x.kind = e.kind)) →
      t.queue.entries = (s.queue.entries.map fun x => if x.id = e.id then { e with running := none } else x)
        ∧ t.queue.marks = s.queue.marks)
    ∧ ∀ pre a mid b post, s.queue.entries = pre ++ a :: mid ++ b :: post →
      (a = e ∧ isWaiting b = true ∨ b = e ∧ isWaiting a = true) → a.route = b.route → a.kind = b.kind →
      t.queue.entries = pre
          ++ { id := a.id, route := e.route, kind := e.kind, cls := if b.cls = .urgent then .urgent else a.cls
               reqs := a.reqs ||| b.reqs, running := none } :: mid ++ post
        ∧ t.queue.marks = perGen fun k => (perGet s.queue.marks k).map fun m =>
            { m with wait := if m.wait.contains a.id then m.wait.filter (· != b.id)
                             else m.wait.map fun i => if i = b.id then a.id else i }

/-- A stop order for the RUNNING entry where it meets `c`: it is given up in SWITCHING, LIVE_CHECK and FIRING; otherwise
nothing changes (R112). -/
def StopOrder (c : Entry → Prop) (s t : State) : Prop :=
  (∀ e ∈ s.queue.entries, isWaiting e = false → canStop s.engine.state = true → c e → GivenUp e s t)
    ∧ ((∀ e ∈ s.queue.entries, isWaiting e = false → canStop s.engine.state = true → ¬c e) → t = s)

/-- R114: the RUNNING entry `e` is ROUTINE and an eligible URGENT entry exists. -/
def Preempted (s : State) (e : Entry) : Prop :=
  e.cls = .routine ∧ ∃ x ∈ s.queue.entries, x.cls = .urgent ∧ isEligible s x = true

/-- R115: the RUNNING entry `e` is ROUTINE and no open window covers its route. -/
def Uncovered (s : State) (e : Entry) : Prop := e.cls = .routine ∧ isCovered s e.route = false

/-- R116: the route of the RUNNING entry `e` is closed and was not among the routes `closed` before. -/
def JustClosed (closed : RouteNo → Bool) (s : State) (e : Entry) : Prop :=
  isClosed s e.route = true ∧ closed e.route = false

/-- `o` is the OK reply to a TEST whose effects have left `t`: it shows the place of the entry `id` in the queue of `t` (R102), and
a free value where the entry has left it (log entry 5). -/
def TestAnswered (c : Client) (tag : Byte) (id : Nat) (word : TestWord) (t : State) (o : Host.Outcome State Fault Refusal) :
    Prop :=
  (∀ pre e post, t.queue.entries = pre ++ e :: post → e.id = id → (∀ x ∈ pre, x.id ≠ id) →
    o = .next (replied c tag 0x01 .ok (.test id word (pre.length + 1)) t))
  ∧ ((∀ e ∈ t.queue.entries, e.id ≠ id) →
    o = .next (replied c tag 0x01 .ok (.test id word (Config.gonePosition t.freeCount).toNat)
      { t with freeCount := t.freeCount + 1 }))

/-! ### Refused and clamped values -/

/-- R65: the field of code `f` (Table 11-8) of the definition holds a value that is refused. -/
def FieldRefused (d : RouteDef) : Nat → Prop
  | 1 => ∃ cs, d.label = some cs ∧ (16 < cs.length ∨ ∃ ch ∈ cs, ch < 0x20 ∨ 0x7E < ch)
  | 2 => 5 < d.pulse
  | 3 => 4 < d.spacing
  | 4 => d.len < 1024 ∨ 32768 < d.len ∨ d.len % 1024 ≠ 0
  | 5 => d.shots < 4 ∨ 16 < d.shots
  | 6 => d.index < 14000 ∨ 15500 < d.index
  | 7 => 1023 < d.dead
  | _ => False

/-- R66: `y` is `x` brought into `lo .. hi`. -/
def ClampedTo (lo hi x y : Nat) : Prop :=
  (x < lo → y = lo) ∧ (lo ≤ x → x ≤ hi → y = x) ∧ (hi < x → y = hi)

/-- R160: the SET_NOTICES carries a part whose value is not in Table 11-8, or a pulse length or threshold outside 1..255. -/
def NoticeRefused (p : NoticeParts) : Prop :=
  (∃ n, p.faultMode = some n ∧ (n < 1 ∨ 4 < n))
    ∨ (∃ n, (p.done = some n ∨ p.window = some n ∨ p.equip = some n ∨ p.log = some n) ∧ 1 < n)
    ∨ (∃ n, (p.clearMode = some n ∨ p.lineMode = some n ∨ p.polarity = some n) ∧ (n < 1 ∨ 2 < n))
    ∨ ∃ n, (p.pulseLen = some n ∨ p.threshold = some n) ∧ (n < 1 ∨ 255 < n)

/-- The settings after an accepted SET_NOTICES: those it carries replaced, the others as they stand (R160). -/
def carried (p : NoticeParts) (cur : NoticeSettings) : NoticeSettings :=
  { faultMode := (p.faultMode.bind faultModeOf).getD cur.faultMode
    done := (p.done.map (· == 1)).getD cur.done
    window := (p.window.map (· == 1)).getD cur.window
    equip := (p.equip.map (· == 1)).getD cur.equip
    log := (p.log.map (· == 1)).getD cur.log
    clearMode := (p.clearMode.bind clearModeOf).getD cur.clearMode
    lineMode := (p.lineMode.bind lineModeOf).getD cur.lineMode
    polarity := (p.polarity.bind polarityOf).getD cur.polarity
    pulseLen := p.pulseLen.getD cur.pulseLen }

/-- R23, R80: the SET_DEVICE carries a value that is refused. -/
def DeviceRefused (p : DeviceParts) : Prop :=
  (∃ n, p.live = some n ∧ 3610 < n) ∨ (∃ n, p.timeout = some n ∧ 4 < n)
    ∨ ∃ first last, p.barred = some (some (first, last)) ∧ (last < first ∨ 47 < last)

/-! ### Resets -/

/-- What every kind of reset empties (R24, R40, R58, R126, R136, R168, R175, R181): the trace buffer only once no block write
is in flight any more. -/
def Emptied (t : State) : Prop :=
  t.front.laser = false ∧ t.front.checking = false ∧ t.front.record = none ∧ t.equip = none
    ∧ (writeInFlight t = false → t.trace = .empty)
    ∧ (∀ r : RouteNo, t.records[r] = none ∧ t.cands[r] = none)
    ∧ t.queue = { entries := [], counter := 1, marks := PerClient.const [] }
    ∧ t.notices = PerClient.const
        { settings :=
            { faultMode := .both, done := true, window := false, equip := true, log := false, clearMode := .onAck
              lineMode := .level, polarity := .activeLow, pulseLen := 10 }
          pending := { faults := 0, done := false, window := false, marks := 0, equip := false, log := false }
          asserted := false, pulse := none }
    ∧ t.links = PerClient.const { rx := .hunt, service := none, owed := [] }
    ∧ t.log.readers = PerClient.const { cursor := 0, overrun := false, threshold := 64 } ∧ t.craftArmed = false

/-- The engine in RECOVERING with the timer `tm` and everything else as R24 leaves it: no running entry, acquisition number 0,
an empty accumulator, a clear marker, no analysis (R25, R58). That its shot count is 0 is the model's choice (log entry 37). -/
def recovering (tm : Option EngineTimer) : Engine :=
  { state := .recovering, running := none, acq := 0, shotCount := 0, acc := [], timer := tm, marker := false,
    analysis := none, held := none }

/-- The card held by the shelf reset line, which will end a reset of kind `k` at its release (R24, R181, R183). -/
def Held (k : ResetKind) (t : State) : Prop :=
  Emptied t ∧ t.shelf = some k ∧ t.log.ring = [] ∧ t.log.next = 0 ∧ t.engine = recovering none

/-- The card in service again after a reset of kind `k`: the log holds the RESET entry alone (R175). -/
def AfterReset (k : ResetKind) (t : State) : Prop :=
  Emptied t ∧ t.shelf = none ∧ t.log.ring = [{ number := 0, time := t.clock.now, body := .reset k }] ∧ t.log.next = 1

/-- A write of block `b` is in flight (Table 5-2). -/
def BeingWritten (b : Nat) (s : State) : Prop :=
  ∃ r w data, s.store.resv = some r ∧ r.phase = .writing w data ∧ r.blocks.getD w 0 = b

/-- R40: the trace buffer after a reset under power. It is EMPTY, but stands as it was until the end of a block write that is
in flight. -/
def TraceLeft (s t : State) : Prop := t.trace = if writeInFlight s then s.trace else .empty

/-- The condition record `new` that the repair of R136 makes of `old` at time `now` for a route. -/
def RepairedAs (now : Time) (e : RouteEntry) (old new : FaultRecord) : Prop :=
  match e.body.bind RouteBody.baseline with
  | some b =>
    new = if old.cond = .unknown then
        { cond := .clear, time := b.time, adopting := some { id := none, kind := .capture, acq := b.acq },
          latest := some b.acq, agreeing := 0, brk := none, events := none, excess := none }
      else old
  | none =>
    new = if old.cond = .unknown then old
      else { cond := .unknown, time := now, adopting := none, latest := none, agreeing := 0, brk := none,
             events := none, excess := none }

/-- The homing at the end of a reset: the engine waits while a block write is in flight; else the switch is commanded to HOME
under the switch timer, or stands there already and the engine is IDLE (R1, R18, R24). -/
def Homing (s t : State) : Prop :=
  if writeInFlight s then t.engine = recovering none ∧ t.switch = s.switch
  else if s.switch = .standing .home then t.engine = { recovering none with state := .idle } ∧ t.switch = s.switch
  else t.engine = recovering (some (.switch (timeoutMs s.device.timeout))) ∧ t.switch = .moving .home

/-- Every command that waits is one that the links and the card can deliver. -/
def PendingFits (s : State) : Prop := ∀ i ∈ s.pending, i.wellFormed = true

/-! ### The clock and the windows (R139, R140, R145) -/

def TimeOk (t : Time) : Prop := t.second < 60 ∧ t.minute < 60 ∧ t.hour < 24 ∧ t.day < 65536

/-- The ranges of Table 8-2, and R145: an OPEN window is enabled with 1 to its duration minutes remaining. -/
def WindowOk (w : Window) : Prop :=
  w.settings.hour ≤ 31 ∧ w.settings.minute ≤ 63 ∧ 1 ≤ w.settings.duration ∧ w.settings.duration ≤ 720
    ∧ ∀ n, w.remaining = some n → w.settings.enabled = true ∧ 1 ≤ n ∧ n ≤ w.settings.duration

/-- The clock's counters are in range, every window is as R145 says, and no window is OPEN while the clock is
STOPPED (R140). -/
def TimeLaw (s : State) : Prop :=
  TimeOk s.clock.now ∧ (∀ w : WindowNo, WindowOk s.windows[w])
    ∧ (s.clock.running = false → ∀ w : WindowNo, s.windows[w].remaining = none)

/-! ### The attention lines (R165, R166) -/

/-- One client's line: in LEVEL mode asserted exactly while a notice is pending and no pulse timer runs; in PULSE mode
asserted exactly while the pulse timer runs. Pulse lengths are 1..255 ms. -/
def LineOk (n : NoticeState) : Prop :=
  1 ≤ n.settings.pulseLen ∧ n.settings.pulseLen ≤ 255 ∧ (∀ k, n.pulse = some k → 1 ≤ k ∧ k ≤ 255)
    ∧ match n.settings.lineMode with
      | .level => n.asserted = anyPending n.pending ∧ n.pulse = none
      | .pulse => n.asserted = n.pulse.isSome

/-- Every client's line is as R165 and R166 say, and its marks carry the numbers 0..3 (R122). -/
def LineLaw (s : State) : Prop :=
  (∀ c : Client, LineOk (perGet s.notices c)) ∧ ∀ c : Client, ∀ m ∈ perGet s.queue.marks c, m.number < 4

/-! ### The Result Log (R169, R171, R173) -/

/-- At most 256 entries, with consecutive numbers up to the one before the next; each client's cursor stands at most the
ring's length behind; thresholds are 1..255. -/
def LogLaw (s : State) : Prop :=
  s.log.ring.length ≤ 256 ∧ s.log.next < 65536
    ∧ (∀ i, ∀ h : i < s.log.ring.length,
        (s.log.ring[i]).number = (s.log.next + 65536 - s.log.ring.length + i) % 65536)
    ∧ ∀ c : Client, (perGet s.log.readers c).cursor < 65536
        ∧ unreadCount s.log (perGet s.log.readers c) ≤ s.log.ring.length
        ∧ 1 ≤ (perGet s.log.readers c).threshold ∧ (perGet s.log.readers c).threshold ≤ 255

/-! ### The links (R176, R177, R179, R182, R184) -/

/-- The partial frame of an assembly is within the lengths R177 allows. -/
def AssemblyOk : Assembly → Prop
  | .hunt | .length => True
  | .body n got => 2 ≤ n ∧ n ≤ 250 ∧ got.length < n
  | .check body _ => 2 ≤ body.length ∧ body.length ≤ 250

/-- A link is in service exactly while a reply is owed, and owes at most 4 BUSY answers. A BUSY, NOT_PERMITTED or
BAD_REQUEST reply carries no data (R184). -/
def LinkOk (l : Link) : Prop :=
  AssemblyOk l.rx ∧ (l.service = none ↔ l.owed = []) ∧ owedBusy l ≤ 4
    ∧ ∀ r ∈ l.owed, r.status = .busy ∨ r.status = .notPermitted ∨ r.status = .badRequest → r.data = .none

/-- Every link is as R176 says; a craft reset is armed only while the RESET of CR is in service (R182); during the hold of
a shelf reset every link is at rest (R181). -/
def LinkLaw (s : State) : Prop :=
  (∀ c : Client, LinkOk (perGet s.links c))
    ∧ (s.craftArmed = true → ∃ tag, s.links.cr.service = some { tag := tag, code := 0x1C })
    ∧ (s.shelf.isSome = true → s.craftArmed = false ∧ ∀ c : Client, perGet s.links c = { rx := .hunt, service := none, owed := [] })

/-! ### The routes and their conditions (R62, R67, R127) -/

/-- The ranges of Table 4-1, the dead-zone law of R67 and a label that is absent or of 1..16 printable characters. -/
def RouteOk (b : RouteBody) : Prop :=
  b.acq.pulse ≤ 5 ∧ b.acq.spacing ≤ 4
    ∧ 1024 ≤ b.acq.len ∧ b.acq.len ≤ 32768 ∧ b.acq.len % 1024 = 0
    ∧ 4 ≤ b.acq.shots ∧ b.acq.shots ≤ 16 ∧ 14000 ≤ b.acq.index ∧ b.acq.index ≤ 15500
    ∧ b.judging.dead ≤ 1023 ∧ 1 ≤ b.judging.width ∧ b.judging.width ≤ 32
    ∧ 5 ≤ b.judging.tLoss ∧ b.judging.tLoss ≤ 1000 ∧ 10 ≤ b.judging.tTotal ∧ b.judging.tTotal ≤ 3000
    ∧ 1 ≤ b.judging.tEnd ∧ b.judging.tEnd ≤ 255 ∧ 50 ≤ b.judging.tReflect ∧ b.judging.tReflect ≤ 2000
    ∧ b.judging.floor ≤ 1000 ∧ 1 ≤ b.judging.confirm ∧ b.judging.confirm ≤ 4
    ∧ deadZone b.acq b.judging.dead + 2 * b.judging.width ≤ b.acq.len
    ∧ ∀ cs, b.label = some cs → 1 ≤ cs.length ∧ cs.length ≤ 16 ∧ ∀ ch ∈ cs, 0x20 ≤ ch ∧ ch ≤ 0x7E

/-- Every DEFINED or BASELINED route is as Table 4-1 and R67 say. -/
def RouteLaw (s : State) : Prop := ∀ r : RouteNo, ∀ b, s.routes[r].body = some b → RouteOk b

/-- R127: a route's condition is UNKNOWN exactly while it is not BASELINED; only a BASELINED route holds a candidate, which
is a test condition other than the adopted one with an agree count from 1 to below the confirm count. -/
def ConditionLaw (s : State) : Prop :=
  ∀ r : RouteNo,
    (s.faults[r].cond = .unknown ↔ routeStatus s.routes[r] ≠ .baselined)
      ∧ ∀ k, s.cands[r] = some k →
          k.cond ≠ .unknown ∧ k.cond ≠ s.faults[r].cond ∧ 1 ≤ k.agree
            ∧ ∃ b, s.routes[r].body = some b ∧ b.baseline.isSome = true ∧ k.agree < b.judging.confirm

/-! ### The baseline blocks (R85, R86) -/

/-- The blocks of the capture reservation. -/
def reservedBlocks (s : State) : List Nat :=
  match s.store.resv with
  | some r => r.blocks
  | none => []

/-- R85: each of the 1,024 blocks is in exactly one of the free pool, the bad set, one route's block list and the
reservation. The free pool stands in increasing block number (R86). -/
def BlockLaw (s : State) : Prop :=
  (s.store.free ++ s.store.bad ++ listedBlocks s ++ reservedBlocks s).Perm (List.range 1024)
    ∧ s.store.free.Pairwise (· < ·)

/-- Where a reservation stands: HELD from the take to the end of ANALYSING, WRITING in COMMITTING or, cut off by a reset,
while the engine waits or is FAULTED (Table 5-2, R24, R96). The engine waits throughout the hold of a shelf reset. -/
def StoreLaw (s : State) : Prop :=
  (∀ r, s.store.resv = some r → r.blocks ≠ []
      ∧ match r.phase with
        | .held => s.engine.running.isSome = true
            ∧ (s.engine.state = .switching ∨ s.engine.state = .liveCheck ∨ s.engine.state = .firing
                ∨ s.engine.state = .analysing)
        | .writing w _ => w < r.blocks.length
            ∧ (s.engine.state = .committing ∨ (s.engine.state = .recovering ∧ s.engine.timer = none)
                ∨ s.engine.state = .faulted))
    ∧ (s.shelf.isSome = true → s.engine.state = .recovering ∧ s.engine.timer = none)

/-- A block's contents: 1,024 levels, each 0..3610 (R29, R85). -/
def LevelsOk (ls : List Nat) : Prop := ls.length = 1024 ∧ ∀ x ∈ ls, x ≤ 3610

/-- What an acquisition has gathered (R11, R37, R68): its settings are still those of its route; a reservation has the blocks
its trace needs; in FIRING and ANALYSING the accumulator has a sum for each position, no larger than its shots can make it; in
COMMITTING the trace buffer holds its whole trace. -/
def GatheredOk (s : State) (run : Running) : Prop :=
  (∃ b, s.routes[run.route].body = some b ∧ b.acq = run.settings)
    ∧ (∀ r, s.store.resv = some r → r.blocks.length * 1024 = run.settings.len)
    ∧ (s.engine.state = .firing ∨ s.engine.state = .analysing →
        s.engine.acc.length = run.settings.len ∧ ∀ c ∈ s.engine.acc, c.sum ≤ 65535 * s.engine.shotCount)
    ∧ (s.engine.state = .firing → s.engine.shotCount < 2 ^ run.settings.shots)
    ∧ (s.engine.state = .analysing → s.engine.shotCount = 2 ^ run.settings.shots)
    ∧ (s.engine.state = .committing → (traceLevels s.trace).length = run.settings.len)

/-- R29, R85: the block contents stand in their canonical form; every level that is stored, on its way into a block or held in
the trace buffer is 0..3610; each baseline's list has one block for each 1,024 samples of its trace length. -/
def ContentsLaw (s : State) : Prop :=
  blockMemWf s.store.mem = true
    ∧ (∀ p ∈ s.store.mem, LevelsOk p.2)
    ∧ (∀ r w data, s.store.resv = some r → r.phase = .writing w data → LevelsOk data)
    ∧ (∀ x ∈ traceLevels s.trace, x ≤ 3610)
    ∧ (∀ (r : RouteNo) b x, s.routes[r].body = some b → b.baseline = some x → x.blocks.length * 1024 = b.acq.len)
    ∧ ∀ run, s.engine.running = some run → GatheredOk s run

/-! ### The Test Queue (R101, R102, R104) -/

/-- R101, R102, R104: at most 32 entries, with ids in 1..65535 that are all different; every URGENT entry before every ROUTINE
one; no two WAITING entries of one route and kind; no empty requester set. -/
def QueueLaw (s : State) : Prop :=
  s.queue.entries.length ≤ 32
    ∧ (s.queue.entries.map Entry.id).Nodup
    ∧ (∀ e ∈ s.queue.entries, 1 ≤ e.id ∧ e.id ≤ 65535 ∧ e.reqs ≠ 0)
    ∧ s.queue.entries.Pairwise (fun a b => a.cls = .routine → b.cls = .routine)
    ∧ s.queue.entries.Pairwise (fun a b => isWaiting a = true → isWaiting b = true → ¬(a.route = b.route ∧ a.kind = b.kind))
    ∧ 1 ≤ s.queue.counter ∧ s.queue.counter ≤ 65535

/-- R73, R74, R105: every entry of the queue is of a DEFINED or BASELINED route. -/
def EntryLaw (s : State) : Prop := ∀ e ∈ s.queue.entries, s.routes[e.route].body ≠ none

/-- R122, R123: a client has at most 4 open marks, in increasing number; each waits for at least one id, and every id it waits
for is that of an entry whose requester set holds the client. -/
def MarkLaw (s : State) : Prop :=
  ∀ c : Client,
    (perGet s.queue.marks c).Pairwise (fun a b => a.number < b.number)
      ∧ ∀ m ∈ perGet s.queue.marks c, m.number < 4 ∧ m.wait ≠ [] ∧ m.wait.Nodup
          ∧ ∀ i ∈ m.wait, ∃ e ∈ s.queue.entries, e.id = i ∧ has e.reqs (bitOf c) = true

/-- SWITCHING, LIVE_CHECK, FIRING, ANALYSING and COMMITTING (R103). -/
def busyState : EngineState → Bool
  | .switching | .liveCheck | .firing | .analysing | .committing => true
  | .idle | .recovering | .faulted => false

/-- R103: in the busy states exactly one entry is RUNNING, the one the engine recorded at its take, under the engine's
acquisition number; otherwise none is. -/
def RunLaw (s : State) : Prop :=
  (busyState s.engine.state = true →
      ∃ run e, s.engine.running = some run ∧ s.queue.entries.filter (fun x => !isWaiting x) = [e]
        ∧ e.id = run.id ∧ e.route = run.route ∧ e.kind = run.kind ∧ e.cls = run.cls
        ∧ e.running = some s.engine.acq)
    ∧ (busyState s.engine.state = false →
        s.engine.running = none ∧ ∀ e ∈ s.queue.entries, isWaiting e = true)

/-- R110, R111: while the engine is IDLE no entry is eligible; whatever makes one eligible is followed by the hand-out. -/
def IdleLaw (s : State) : Prop := s.engine.state = .idle → NoneEligible s

/-- R4: the laser is on only in FIRING, with no laser fault standing; and an acquisition that can be stopped is of a route
that is neither held nor barred and, if its entry is ROUTINE, covered by an open window. No acquisition is under way while
the shelf reset line holds the card. -/
def LaserLaw (s : State) : Prop :=
  (s.front.laser = true → s.engine.state = .firing ∧ s.front.fault = false)
    ∧ (canStop s.engine.state = true → ∀ run, s.engine.running = some run →
        isClosed s run.route = false ∧ (run.cls = .routine → isCovered s run.route = true))
    ∧ (s.shelf.isSome = true → s.engine.state = .recovering ∧ s.engine.timer = none)

end Sys2Proof.Machine
end

