-- ==== Sys2Proof/Certificates/Slice0/Obligations.lean ====
section
/-! DEFINITION. The statements for the provers. Each is a proposition about the model, written from the rules of spec/; a
clause that rests on a choice of the model says so and names its log entry. -/

section

open Sys2Proof Sys2Proof.Machine

/-! ### The step and its outcomes -/

/-- A step runs the command at the front of the queue with the rest of the queue. On an empty queue the card idles: that
clause is the model's choice (log entry 1). -/
def Obligations.StepRunsFrontCommand : Prop :=
  (∀ (i : Instr) (rest : List Instr) (s : State), s.pending = i :: rest → step s = exec i { s with pending := rest })
    ∧ ∀ s : State, s.pending = [] → step s = .next s

/-- Every command is executed in every state and leaves the queue of commands as it is. The one exception is the model's
choice (log entry 13): a shot record of a wrong length for the running acquisition, which R2 says no front end delivers, is
refused. -/
def Obligations.OnlyAWrongRecordIsRefused : Prop :=
  ∀ (i : Instr) (s : State),
    (∃ t, exec i s = .next t ∧ t.pending = s.pending)
      ∨ exec i s = .refused .recordLength
        ∧ ∃ acq samples run, i = .shotComplete acq samples ∧ s.engine.running = some run ∧ s.engine.state = .firing
            ∧ s.engine.acq = acq ∧ samples.length ≠ run.settings.len

/-! ### Frames and their parsing -/

/-- Every request whose numbers fit its fields is read back whole from its parameter bytes (R184, Table 11-8); and the
characters of its frame, received one after another from HUNT, do what the request does: no byte of the frame is lost, its
check agrees and its parameters are read as sent (R177, R178, R180, R184). The 28 requests stand in the order of their codes
(Table 11-1). That a request row of the table is the arrival of its frame (log entry 3) and the shapes of the parameters that
no table lays out (log entry 20) are the model's readings. -/
def Obligations.FramesReachTheirRequest : Prop :=
  (∀ (c : Client) (tag : Byte) (n m k : Nat) (o : Option Nat) (go : Bool) (d : RouteDef) (w : WindowDef) (p : NoticeParts)
      (a : AckParts) (v : DeviceParts) (rs : List Request),
    rs = [.test n m k, .cancel n, .mark, .readQueue n, .defineRoute n m d, .deleteRoute n m, .readRoute n, .readResult n o,
          .readTrace n m k, .readBaseline n m k o, .hold n, .release n, .clearHolds n, .setWindow n w, .readWindow n,
          .setClock n m k go, .startClock, .stopClock, .readClock, .setNotices p, .readNotices, .ackNotices a, .readLog,
          .setDevice v, .readDevice, .readEquipment, .clearEquipment, .reset] →
      rs.map Request.code = List.range' 1 28
      ∧ rs.map (Request.on c tag)
        = [.test c tag n m k, .cancel c tag n, .mark c tag, .readQueue c tag n, .defineRoute c tag n m d,
           .deleteRoute c tag n m, .readRoute c tag n, .readResult c tag n o, .readTrace c tag n m k,
           .readBaseline c tag n m k o, .hold c tag n, .release c tag n, .clearHolds c tag n, .setWindow c tag n w,
           .readWindow c tag n, .setClock c tag n m k go, .startClock c tag, .stopClock c tag, .readClock c tag,
           .setNotices c tag p, .readNotices c tag, .ackNotices c tag a, .readLog c tag, .setDevice c tag v,
           .readDevice c tag, .readEquipment c tag, .clearEquipment c tag, .resetRequest c tag])
    ∧ (∀ r : Request, r.wellFormed = true → parseRequest r.code r.params = some r)
    ∧ ∀ (c : Client) (tag : Byte) (r : Request) (s : State),
      r.wellFormed = true → (r.body tag).length ≤ 250 → s.shelf = none → (perGet s.links c).rx = .hunt →
        receiveAll c (r.frame tag) s = exec (r.on c tag) s

/-! ### Laws that every step keeps -/

/-- The clock's counters stay in range; a window is OPEN only while it is enabled and the clock runs, with 1 to its duration
minutes remaining (R139, R140, R145). The commands that wait are well-formed ones, and stay so. -/
def Obligations.EveryStepKeepsTimeLaw : Prop :=
  ∀ s t : State, PendingFits s → TimeLaw s → step s = .next t → PendingFits t ∧ TimeLaw t

/-- A line in LEVEL mode is asserted exactly while a notice is pending, one in PULSE mode exactly while its pulse timer runs
(R165, R166). -/
def Obligations.EveryStepKeepsLineLaw : Prop :=
  ∀ s t : State, LineLaw s → step s = .next t → LineLaw t

/-- The ring holds at most 256 entries with consecutive numbers, and no client's unread count exceeds the ring
(R169, R171). -/
def Obligations.EveryStepKeepsLogLaw : Prop :=
  ∀ s t : State, LogLaw s → step s = .next t → LogLaw t

/-- A link is in service exactly while a reply is owed and owes at most 4 BUSY answers (R176, R179); a BUSY,
NOT_PERMITTED or BAD_REQUEST reply that it owes carries no data (R184). -/
def Obligations.EveryStepKeepsLinkLaw : Prop :=
  ∀ s t : State, LinkLaw s → step s = .next t → LinkLaw t

/-- Every defined route keeps the ranges of Table 4-1 and has two analysis widths past its effective dead zone (R65 to R67).
With that, a route's condition is UNKNOWN exactly while it is not BASELINED, and a candidate is of another condition with an
agree count below the confirm count (R127). -/
def Obligations.EveryStepKeepsRouteAndConditionLaw : Prop :=
  ∀ s t : State, RouteLaw s → step s = .next t → RouteLaw t ∧ (ConditionLaw s → ConditionLaw t)

/-- Each of the 1,024 blocks is in exactly one place (R85), and a reservation stands only in the states of Table 5-2. -/
def Obligations.EveryStepKeepsBlockLaw : Prop :=
  ∀ s t : State, RouteLaw s → StoreLaw s → BlockLaw s → step s = .next t → StoreLaw t ∧ BlockLaw t

/-- The block contents stay in their canonical form, every level that is stored, on its way into a block or held in the trace
buffer is 0..3610, and each baseline's list has one block for each 1,024 samples of its trace length (R29, R42, R85, R88). An
entry of the queue is never of an UNUSED route (R73, R74, R105). -/
def Obligations.EveryStepKeepsContentsAndEntryLaw : Prop :=
  ∀ s t : State, QueueLaw s → step s = .next t →
    (EntryLaw s → EntryLaw t)
      ∧ (RunLaw s → RouteLaw s → StoreLaw s → BlockLaw s → ContentsLaw s → ContentsLaw t)

/-- The queue holds at most 32 entries with different ids, the URGENT ones first, and no two WAITING twins (R101, R102,
R104). With that, an open mark waits only for entries that its client requests (R122, R123). -/
def Obligations.EveryStepKeepsQueueAndMarkLaw : Prop :=
  ∀ s t : State, QueueLaw s → step s = .next t → QueueLaw t ∧ (MarkLaw s → MarkLaw t)

/-- The laser is on only in FIRING with no laser fault, for a route that is neither held nor barred and, for a ROUTINE entry,
covered; exactly one entry is RUNNING, the one the engine works on (R4, R103). -/
def Obligations.EveryStepKeepsLaserLaw : Prop :=
  ∀ s t : State, QueueLaw s → RunLaw s → LaserLaw s → step s = .next t → RunLaw t ∧ LaserLaw t

/-- The port is never left free: while the engine is IDLE no entry is eligible. Each event that takes the engine to
IDLE, makes an entry or makes one eligible is followed by the hand-out (R16, R110, R111). -/
def Obligations.EveryStepKeepsIdleLaw : Prop :=
  ∀ s t : State, QueueLaw s → RunLaw s → LaserLaw s → EntryLaw s → IdleLaw s → step s = .next t → IdleLaw t

/-- The state after reset meets every law, the canonical form of the block contents among them. It is what POWER_ON leaves of
itself: its retained store has never been written, so that every route is UNUSED and UNKNOWN, every window disabled, the bad
set empty and every device setting at its default (R23, R84, R97, R136, R157). -/
def Obligations.ResetMeetsTheLaws : Prop :=
  PendingFits State.reset ∧ TimeLaw State.reset ∧ LineLaw State.reset ∧ LogLaw State.reset ∧ LinkLaw State.reset
    ∧ RouteLaw State.reset ∧ ConditionLaw State.reset ∧ StoreLaw State.reset ∧ BlockLaw State.reset
    ∧ QueueLaw State.reset ∧ MarkLaw State.reset ∧ RunLaw State.reset ∧ LaserLaw State.reset
    ∧ EntryLaw State.reset ∧ ContentsLaw State.reset ∧ IdleLaw State.reset
    ∧ exec .powerOn State.reset = .next State.reset
    ∧ State.reset.device = { live := 600, timeout := 2, barred := none } ∧ State.reset.store.bad = []
    ∧ (∀ r : RouteNo, State.reset.routes[r] = { revision := 0, holds := 0, body := none }
      ∧ State.reset.faults[r]
        = { cond := .unknown, time := { day := 0, hour := 0, minute := 0, second := 0 }, adopting := none, latest := none
            agreeing := 0, brk := none, events := none, excess := none })
    ∧ ∀ w : WindowNo, State.reset.windows[w].settings
      = { enabled := false, hour := 0, minute := 0, factors := 0, weekdays := 0, duration := 60, routes := 0 }

/-! ### Resets -/

/-- POWER_ON with the shelf reset line not active: the volatile state is emptied, the retained state stands with each
condition made to agree with its route, the free pool is rebuilt, the clock is STOPPED at zero with every window CLOSED, and the
engine homes the switch (R24, R40, R97, R136, R157, R175). The contents of every block but one whose write power loss cut off
stand.
CRAFT_RESET, and the end of the OK reply to RESET that brings it: the volatile state is emptied, the trace buffer once a write
in flight has ended, a HELD reservation is returned, clock, windows and retained state stand, and the engine homes the switch
once no block write is in flight (R24, R40, R96, R136, R158, R175, R182). That CRAFT_RESET takes effect in every state in which
the line is not active (log entry 14), and that a laser fault that stands passes through every reset, POWER_ON among them (log
entry 16), are the model's readings; that the shot count is then 0 is its choice (log entry 37). -/
def Obligations.PowerOnAndCraftReset : Prop :=
  (∀ (s : State) (b : Nat),
    b ∈ listedBlocks s ↔ ∃ (r : RouteNo) (v : RouteBody) (x : Baseline),
      s.routes[r].body = some v ∧ v.baseline = some x ∧ b ∈ x.blocks)
  ∧ (∀ s : State, s.shelf = none → ∃ t, exec .powerOn s = .next t
    ∧ AfterReset .powerOn t ∧ t.trace = .empty ∧ t.front.fault = s.front.fault ∧ t.pending = s.pending
    ∧ t.device = s.device ∧ t.routes = s.routes
    ∧ (∀ r : RouteNo, RepairedAs Time.zero s.routes[r] s.faults[r] t.faults[r])
    ∧ t.engine = recovering (some (.switch (timeoutMs s.device.timeout))) ∧ t.switch = .moving .home
    ∧ t.clock = { now := { day := 0, hour := 0, minute := 0, second := 0 }, running := false }
    ∧ (∀ w : WindowNo, t.windows[w] = { settings := s.windows[w].settings, remaining := none })
    ∧ t.store.resv = none ∧ t.store.bad = s.store.bad
    ∧ t.store.free = (List.range 1024).filter (fun b => !decide (b ∈ listedBlocks s) && !decide (b ∈ s.store.bad))
    ∧ ∀ b, ¬BeingWritten b s → readBlock t.store.mem b = readBlock s.store.mem b)
  ∧ ∀ s : State, s.shelf = none →
    (∃ t, exec .craftReset s = .next t
      ∧ AfterReset .craftReset t ∧ TraceLeft s t ∧ Homing s t ∧ ReservationReturned s t ∧ t.front.fault = s.front.fault
      ∧ t.pending = s.pending ∧ t.device = s.device ∧ t.routes = s.routes ∧ t.clock = s.clock ∧ t.windows = s.windows
      ∧ t.freeCount = s.freeCount ∧ ∀ r : RouteNo, RepairedAs s.clock.now s.routes[r] s.faults[r] t.faults[r])
    ∧ (s.craftArmed = true → s.links.cr.owed ≠ [] → exec (.replySent .cr) s = exec .craftReset s)

/-- SHELF_RESET, and POWER_ON while the line is active: the card is held with its volatile state emptied, the trace buffer once a
write in flight has ended, and an empty log. A shelf reset leaves clock, windows, switch and retained state as they are and
returns a HELD reservation; a power-on stops the clock at zero, closes the windows and rebuilds the free pool, the contents of
every block but one whose write power loss cut off standing (R24, R40, R96, R97, R157, R158, R181, R183).
SHELF_RESET_RELEASE: the RESET entry is written, conditions are made to agree with their routes and the engine homes the
switch once no block write is in flight (R24, R136, R175, R181, R183).
The model's choices and readings: a line that is active already, and the release of one that is not, make no event (log entry
14); a laser fault that stands is kept (log entry 16); the repair at the release takes the clock as it then stands (log entry
22); the switch position after a POWER_ON under the line is not known (log entry 29); the shot count after a reset is 0 (log
entry 37). -/
def Obligations.ShelfResetAndRelease : Prop :=
  (∀ s : State,
    (s.shelf = none → ∃ t, exec .shelfReset s = .next t
      ∧ Held .shelfReset t ∧ TraceLeft s t ∧ ReservationReturned s t ∧ t.front.fault = s.front.fault ∧ t.switch = s.switch
      ∧ t.clock = s.clock ∧ t.windows = s.windows ∧ t.device = s.device ∧ t.routes = s.routes ∧ t.faults = s.faults
      ∧ t.freeCount = s.freeCount ∧ t.pending = s.pending)
    ∧ (∀ k, s.shelf = some k → exec .shelfReset s = .next s
      ∧ ∃ t, exec .powerOn s = .next t
        ∧ Held .powerOn t ∧ t.trace = .empty ∧ t.front.fault = s.front.fault ∧ t.switch = .unknown
        ∧ t.clock = { now := { day := 0, hour := 0, minute := 0, second := 0 }, running := false }
        ∧ (∀ w : WindowNo, t.windows[w] = { settings := s.windows[w].settings, remaining := none })
        ∧ t.device = s.device ∧ t.routes = s.routes ∧ t.faults = s.faults ∧ t.store.resv = none
        ∧ t.store.bad = s.store.bad ∧ t.pending = s.pending
        ∧ t.store.free = (List.range 1024).filter (fun b => !decide (b ∈ listedBlocks s) && !decide (b ∈ s.store.bad))
        ∧ ∀ b, ¬BeingWritten b s → readBlock t.store.mem b = readBlock s.store.mem b))
  ∧ (∀ s : State,
    (s.shelf = none → exec .shelfResetRelease s = .next s)
    ∧ ∀ k, Held k s → ∃ t, exec .shelfResetRelease s = .next t
        ∧ AfterReset k t ∧ t.trace = s.trace ∧ Homing s t ∧ t.front.fault = s.front.fault ∧ t.store = s.store
        ∧ t.clock = s.clock
        ∧ t.windows = s.windows ∧ t.device = s.device ∧ t.routes = s.routes ∧ t.freeCount = s.freeCount
        ∧ t.pending = s.pending ∧ ∀ r : RouteNo, RepairedAs s.clock.now s.routes[r] s.faults[r] t.faults[r])

/-- While the shelf reset line holds the card, every request is discarded, and no command but the release and POWER_ON ends the
hold or changes a device setting, a route, a condition or a link; clock and windows go on (R24, R158, R181). -/
def Obligations.HoldStandsStill : Prop :=
  (∀ (c : Client) (tag : Byte) (r : Request) (s : State), s.shelf ≠ none → exec (r.on c tag) s = .next s)
    ∧ ∀ (k : ResetKind) (i : Instr) (s t : State), Held k s → i ≠ .powerOn → i ≠ .shelfResetRelease →
        exec i s = .next t →
          Held k t ∧ t.device = s.device ∧ t.routes = s.routes ∧ t.faults = s.faults ∧ t.links = s.links
            ∧ (i ≠ .tick → i ≠ .minuteRollover → (∀ w, i ≠ .windowCountExpiry w) →
                t.clock = s.clock ∧ t.windows = s.windows)

/-! ### The links -/

/-- A character moves the receive assembly as R177 says; the second check byte completes the frame, which is discarded when the
check differs (R178), answered BAD_REQUEST when its code is not in Table 11-1 or its parameters do not fit, the privilege
coming before the shape (R180). A good frame completed while the link is in service, whatever its code and parameters, is owed
BUSY with its tag, or discarded with 4 of those owed (R179). A framing error and the gap timer's expiry empty the assembly
(R176, R177). -/
def Obligations.AssemblyMoves : Prop :=
  ∀ (c : Client) (b : Byte) (s : State), s.shelf = none →
    ((perGet s.links c).rx = .hunt → exec (.characterReceived c b) s = .next (if b = 0xA5 then withRx c .length s else s))
    ∧ ((perGet s.links c).rx = .length →
        exec (.characterReceived c b) s
          = .next (withRx c (if 2 ≤ b.toNat ∧ b.toNat ≤ 250 then .body b.toNat [] else .hunt) s))
    ∧ (∀ n got, (perGet s.links c).rx = .body n got →
        exec (.characterReceived c b) s
          = .next (withRx c (if got.length + 1 < n then .body n (got ++ [b]) else .check (got ++ [b]) none) s))
    ∧ (∀ body, (perGet s.links c).rx = .check body none →
        exec (.characterReceived c b) s = .next (withRx c (.check body (some b)) s))
    ∧ (∀ body high, (perGet s.links c).rx = .check body (some high) →
        frameCheck (BitVec.ofNat 8 body.length :: body) ≠ high ++ b →
          exec (.characterReceived c b) s = .next (withRx c .hunt s))
    ∧ (∀ tag code ps high, (perGet s.links c).rx = .check (tag :: code :: ps) (some high) →
        frameCheck (BitVec.ofNat 8 (ps.length + 2) :: tag :: code :: ps) = high ++ b →
        (perGet s.links c).service = none →
          ((code = 0 ∨ 0x1C < code.toNat) →
            exec (.characterReceived c b) s
              = .next (replied c tag code.toNat .badRequest .none (withRx c .hunt s)))
          ∧ (1 ≤ code.toNat → code.toNat ≤ 0x1C → parseRequest code.toNat ps = none →
            exec (.characterReceived c b) s
              = .next (replied c tag code.toNat (if permitted code.toNat c then .badRequest else .notPermitted) .none
                  (withRx c .hunt s)))
          ∧ ∀ r, parseRequest code.toNat ps = some r →
            exec (.characterReceived c b) s = exec (r.on c tag) (withRx c .hunt s))
    ∧ (∀ tag code ps high, (perGet s.links c).rx = .check (tag :: code :: ps) (some high) →
        frameCheck (BitVec.ofNat 8 (ps.length + 2) :: tag :: code :: ps) = high ++ b →
        (perGet s.links c).service ≠ none →
          exec (.characterReceived c b) s = .next
            (if ((perGet s.links c).owed.filter fun x => x.status == .busy).length < 4 then
              withLink c
                { rx := .hunt, service := (perGet s.links c).service
                  owed := (perGet s.links c).owed ++ [{ tag := tag, status := .busy, data := .none }] } s
            else withRx c .hunt s))
    ∧ exec (.framingError c) s = .next (withRx c .hunt s)
    ∧ exec (.gapTimerExpiry c) s = .next (withRx c .hunt s)

/-- The end of a reply: the next owed reply is sent, or, when it was the last, the link leaves service (R179). With no reply
being sent there is no such event (the model's choice, log entry 14).
A request that comes while its link is in service has no effect on any block: it is owed a BUSY answer with its tag, or
discarded when 4 are owed (R179).
A request that Table 11-1 does not allow its sender is answered NOT_PERMITTED and changes nothing: DEFINE_ROUTE,
DELETE_ROUTE, HOLD, RELEASE, SET_WINDOW, SET_CLOCK, START_CLOCK, STOP_CLOCK, SET_DEVICE and CLEAR_EQUIPMENT from LS, and
CLEAR_HOLDS and RESET from any client but CR. -/
def Obligations.LinkServiceAndPrivileges : Prop :=
  (∀ (c : Client) (s : State),
    ((perGet s.links c).owed = [] → exec (.replySent c) s = .next s)
    ∧ ∀ r rest, (perGet s.links c).owed = r :: rest → ¬(c = .cr ∧ s.craftArmed = true) →
        exec (.replySent c) s = .next (withLink c
          { rx := (perGet s.links c).rx
            service := if rest = [] then none else (perGet s.links c).service
            owed := rest } s))
  ∧ (∀ (c : Client) (tag : Byte) (r : Request) (s : State), s.shelf = none → (perGet s.links c).service ≠ none →
    exec (r.on c tag) s = .next
      (if ((perGet s.links c).owed.filter fun x => x.status == .busy).length < 4 then
        withLink c
          { rx := (perGet s.links c).rx
            service := (perGet s.links c).service
            owed := (perGet s.links c).owed ++ [{ tag := tag, status := .busy, data := .none }] } s
      else s))
  ∧ (∀ (c : Client) (tag : Byte) (r : Request) (s : State), Ready c s →
    (c = .ls ∧ r.code ∈ [0x05, 0x06, 0x0B, 0x0C, 0x0E, 0x10, 0x11, 0x12, 0x18, 0x1B]
        ∨ c ≠ .cr ∧ r.code ∈ [0x0D, 0x1C]) →
      exec (r.on c tag) s = .next (replied c tag r.code .notPermitted .none s))

/-- The frame of a reply: sync, length, tag, status, data and check, high byte first, the check being the remainder for
x^16 + x^12 + x^5 + 1 of a register that starts at all ones (R178, Table 11-4); sets as their members' bits; numbers high
byte first, signed ones in two's complement, a set of routes in six bytes (R184); the codes of Tables 11-2 and 11-8 that
the layouts use; a log entry in 21 bytes, a field it lacks as Table 11-5 gives it; the test part and the fault part of
READ_RESULT with their presence bits, at most 8 events from the first event number on, and a field whose presence bit is
clear sent as 0 (Tables 11-6 and 11-7); the data of READ_LOG, READ_RESULT and READ_TRACE, with bit 15 of a level telling
of saturation (R39). That the first saturated index of a record without analysis fields is sent as 0 (log entry 33), an
absent latest counted test too, and that of a READ_TRACE reply behind a presence byte (log entry 19), are the model's
choices. -/
def Obligations.RepliesAreFramed : Prop :=
  (frameCheck [] = 0xFFFF
    ∧ ∀ (bs : List Byte) (b : Byte) (reg : Nat → BitVec 16), reg 0 = frameCheck bs →
      (∀ i, i < 8 → reg (i + 1) = (reg i <<< 1) ^^^ (if (reg i).getLsbD 15 = b.getLsbD (7 - i) then 0 else 0x1021)) →
        frameCheck (bs ++ [b]) = reg 8)
  ∧ (∀ r : Reply, (bytesData r.data).length ≤ 248 → ∃ n high low : Byte,
    n.toNat = (bytesData r.data).length + 2
    ∧ replyFrame r = [0xA5, n, r.tag, BitVec.ofNat 8 (statusCode r.status)] ++ bytesData r.data ++ [high, low]
    ∧ high ++ low = frameCheck ([n, r.tag, BitVec.ofNat 8 (statusCode r.status)] ++ bytesData r.data))
  ∧ (∀ n, (n < 256 → (bytes1 n).map BitVec.toNat = [n])
    ∧ (n < 65536 → (bytes2 n).map BitVec.toNat = [n / 256, n % 256])
    ∧ (n < 16777216 → (bytes3 n).map BitVec.toNat = [n / 65536, n / 256 % 256, n % 256]))
  ∧ (∀ x : Int, -32768 ≤ x → x < 32768 → ∃ high low : Byte, bytesSigned x = [high, low] ∧ (high ++ low).toInt = x)
  ∧ (∀ set : RouteSet, (bytesRoutes set).length = 6
    ∧ ∀ i, i < 48 → ((bytesRoutes set).getD (i / 8) 0).getLsbD (i % 8) = has set i)
  ∧ (∀ (n : Nat) (set : BitVec n) (i j : Nat),
    has set j = set.getLsbD j ∧ (i < n → has (add set i) j = (has set j || decide (j = i)))
      ∧ has (del set i) j = (has set j && decide (j ≠ i)))
  ∧ [Client.scA, .scB, .ls, .cr].map bitOf = [0, 1, 2, 3] ∧ confirmBit = 4
  ∧ ([Status.ok, .okClamped, .busy, .notPermitted, .badRequest, .badValue, .noRoute, .stale, .held, .barred, .queueFull,
        .routeBusy, .notRequester, .notHeld, .clockRunning, .marksFull, .noEntry].map statusCode = List.range 17
    ∧ [TestKind.check, .capture].map kindCode = [1, 2] ∧ [TestClass.urgent, .routine].map classCode = [1, 2]
    ∧ [TestOutcome.judged, .noBaseline, .captured, .noFibre, .storeFull, .liveLight, .switchStuck, .acqTimeout, .laserFault,
        .storeError, .cancelled, .routeDeleted].map outcomeCode = List.range' 1 12
    ∧ [Condition.unknown, .clear, .degraded, .bend, .broken].map conditionCode = [1, 2, 3, 4, 5]
    ∧ [BreakKind.near, .reflective, .nonReflective].map breakCode = [1, 2, 3]
    ∧ [CloseCause.expired, .edited, .clockStopped].map causeCode = [1, 2, 3]
    ∧ [EquipKind.switchStuck, .homeFailed, .acqTimeout, .laserFault, .storeWriteFail].map equipCode = [1, 2, 3, 4, 5]
    ∧ [ResetKind.powerOn, .shelfReset, .craftReset].map resetCode = [1, 2, 3]
    ∧ [Client.scA, .scB, .ls, .cr].map clientCode = [1, 2, 3, 4]
    ∧ [RouteChange.defined, .deleted].map routeChangeCode = [1, 2]
    ∧ [ClockChange.set, .started, .stopped].map clockChangeCode = [3, 4, 5])
  ∧ (∀ (n : Nat) (t : Time) (head : List Byte) (entry : LogBody → List Byte),
    head = bytes2 n ++ bytes2 t.day ++ bytes1 t.hour ++ bytes1 t.minute ++ bytes1 t.second →
    (∀ b, entry b = bytesLogEntry { number := n, time := t, body := b }) →
      (∀ b, (entry b).length = 21)
      ∧ (∀ k, entry (.reset k) = head ++ [1, 0xFF, 0, 0, 0, 0, 0, 0, 0xFF, 0, 0] ++ bytes1 (resetCode k) ++ [0, 0])
      ∧ (∀ r id k out reqs by_, entry (.testDone r id k out reqs by_)
        = head ++ [2] ++ bytes1 r ++ bytes2 id ++ bytes1 (kindCode k) ++ bytes1 (outcomeCode out) ++ [0]
          ++ bytes1 (128 + reqs.toNat) ++ [0xFF, 0, 0, 0] ++ bytes1 (by_.elim 0 clientCode) ++ [0])
      ∧ (∀ r c test by_, entry (.faultChange r c test by_)
        = head ++ [3] ++ bytes1 r ++ bytes2 (test.elim 0 Prod.fst) ++ bytes1 (test.elim 0 fun x => kindCode x.2) ++ [0]
          ++ bytes1 (conditionCode c) ++ [0, 0xFF, 0, 0, 0] ++ bytes1 (by_.elim 0 clientCode) ++ [0])
      ∧ (∀ w : WindowNo, entry (.windowOpen w) = head ++ [4, 0xFF, 0, 0, 0, 0, 0, 0] ++ bytes1 w ++ [0, 0, 0, 0, 0])
      ∧ (∀ (w : WindowNo) c, entry (.windowClose w c)
        = head ++ [5, 0xFF, 0, 0, 0, 0, 0, 0] ++ bytes1 w ++ bytes1 (causeCode c) ++ [0, 0, 0, 0])
      ∧ (∀ r c ch, entry (.routeChange r c ch)
        = head ++ [6] ++ bytes1 r ++ [0, 0, 0, 0, 0, 0, 0xFF, 0, 0, 0] ++ bytes1 (clientCode c)
          ++ bytes1 (routeChangeCode ch))
      ∧ (∀ r c h, entry (.holdChange r c h)
        = head ++ [7] ++ bytes1 r ++ [0, 0, 0, 0, 0] ++ bytes1 (128 + h.toNat) ++ [0xFF, 0, 0, 0] ++ bytes1 (clientCode c)
          ++ [0])
      ∧ (∀ c ch, entry (.clock c ch)
        = head ++ [8, 0xFF, 0, 0, 0, 0, 0, 0, 0xFF, 0, 0, 0] ++ bytes1 (clientCode c) ++ bytes1 (clockChangeCode ch))
      ∧ ∀ k r, entry (.equipment k r)
        = head ++ [9] ++ bytes1 (r.elim 0xFF Fin.val) ++ [0, 0, 0, 0, 0, 0, 0xFF, 0] ++ bytes1 (equipCode k) ++ [0, 0, 0])
  ∧ (∀ (first : Nat) (all : List LossEvent) (events : List Byte),
    events = bytes1 all.length ++ bytes1 (min 8 (all.length - first))
      ++ ((all.drop first).take 8).flatMap (fun e => bytes2 e.index ++ bytes3 e.distance ++ bytes2 e.loss) →
    bytesTestPart first none = [0]
    ∧ (∀ (r : TestRecord) (j : Option Judgement) (p : Byte), j = r.judgement → all = j.elim [] Judgement.events →
      (∀ i, p.getLsbD i = true ↔
        i = 0 ∧ r.fields ≠ none
          ∨ ∃ x, j = some x ∧ (i = 1 ∨ i = 2 ∧ x.brk ≠ none ∨ i = 3 ∧ x.more = true ∨ i = 4 ∧ x.longer = true
              ∨ i = 5 ∧ x.excess ≠ none)) →
        bytesTestPart first (some r)
          = [1] ++ bytes2 r.id ++ bytes2 r.acq ++ bytes1 (kindCode r.kind) ++ bytes1 (classCode r.cls)
            ++ bytes2 r.time.day ++ bytes1 r.time.hour ++ bytes1 r.time.minute ++ bytes1 r.time.second
            ++ bytes1 (outcomeCode r.outcome) ++ bytes2 r.len ++ [p]
            ++ r.fields.elim (List.replicate 12 0) (fun f =>
                bytes2 f.dzEff ++ bytes1 f.width ++ bytes2 f.em ++ bytes3 f.dEm ++ bytes2 f.satCount
                  ++ bytes2 (f.firstSat.getD 0xFFFF))
            ++ bytes1 (j.elim 0 fun x => conditionCode x.cond)
            ++ (j.bind Judgement.brk).elim (List.replicate 4 0) (fun b => bytes1 (breakCode b.kind) ++ bytes3 b.distance)
            ++ bytesSigned ((j.bind Judgement.excess).getD 0) ++ events
        ∧ (bytesTestPart first (some r)).length = 37 + 7 * min 8 (all.length - first))
    ∧ ∀ (q : FaultPart) (f : FaultRecord) (p : Byte), f = q.record → all = f.events.elim [] EventList.events →
      (∀ i, p.getLsbD i = true ↔
        i = 0 ∧ f.adopting ≠ none ∨ i = 1 ∧ f.adopting.bind Adopting.id ≠ none ∨ i = 2 ∧ f.brk ≠ none
          ∨ i = 3 ∧ f.events ≠ none ∨ i = 4 ∧ (∃ l, f.events = some l ∧ l.more = true) ∨ i = 5 ∧ f.excess ≠ none
          ∨ i = 6 ∧ q.candidate ≠ none) →
        bytesFaultPart first q
          = [p] ++ bytes1 (conditionCode f.cond) ++ bytes2 f.time.day ++ bytes1 f.time.hour ++ bytes1 f.time.minute
            ++ bytes1 f.time.second ++ bytes2 ((f.adopting.bind Adopting.id).getD 0)
            ++ bytes1 (f.adopting.elim 0 fun a => kindCode a.kind) ++ bytes2 (f.adopting.elim 0 Adopting.acq)
            ++ bytes2 (f.latest.getD 0) ++ bytes2 f.agreeing
            ++ f.brk.elim (List.replicate 4 0) (fun b => bytes1 (breakCode b.kind) ++ bytes3 b.distance)
            ++ bytesSigned (f.excess.getD 0) ++ bytes1 (q.candidate.elim 0 fun c => conditionCode c.cond)
            ++ bytes1 (q.candidate.elim 0 Candidate.agree) ++ bytes1 q.confirm ++ events
        ∧ (bytesFaultPart first q).length = 27 + 7 * min 8 (all.length - first))
  ∧ bytesData .none = []
  ∧ (∀ first r q, bytesData (.result first r q) = bytesTestPart first r ++ bytesFaultPart first q)
  ∧ (∀ (overrun : Bool) es unread oldest newest, bytesData (.log overrun es unread oldest newest)
    = [if overrun then 1 else 0] ++ bytes1 es.length ++ bytes2 unread ++ bytes2 oldest ++ bytes2 newest
      ++ es.flatMap bytesLogEntry)
  ∧ ∀ (l : TraceLabels) (dz em count : Nat) (firstSat : Option Nat) (offset : Nat) (cells : List TraceCell)
      (bytesOf : TraceCell → List Byte),
    (∀ c ∈ cells, ∃ high low : Byte, bytesOf c = [high, low]
      ∧ 256 * high.toNat + low.toNat = if c.sat then c.level + 32768 else c.level) →
    (∀ c ∈ cells, c.level ≤ 3610) →
      bytesData (.trace l dz em count firstSat offset cells)
        = bytes2 l.acq ++ bytes1 l.route ++ bytes1 (kindCode l.kind) ++ bytes2 l.settings.len ++ bytes1 l.settings.pulse
          ++ bytes1 l.settings.spacing ++ bytes2 l.settings.index ++ bytes2 dz ++ bytes2 em ++ bytes2 count
          ++ firstSat.elim [0] (fun i => [1] ++ bytes2 i) ++ bytes2 offset ++ bytes1 cells.length ++ cells.flatMap bytesOf

/-! ### Reads -/

/-- READ_CLOCK, READ_DEVICE, READ_EQUIPMENT and READ_WINDOW report what stands and change nothing (R22, R23, R144,
R155).
READ_ROUTE and READ_RESULT report a route's entry, its test record and its fault part, and change nothing; an UNUSED
route has no result (R59, R76, R137). That a first event above 15 is refused before the route's status is looked at (log
entry 23), and that the clock reading of READ_WINDOW has no weekday (log entry 34), are the model's choices. -/
def Obligations.ReadsChangeNothing : Prop :=
  (∀ (c : Client) (tag : Byte) (s : State), Ready c s →
    exec (.readClock c tag) s
        = .next (replied c tag 0x13 .ok (.clockRead s.clock.now (s.clock.now.day % 7) s.clock.running) s)
    ∧ exec (.readDevice c tag) s = .next (replied c tag 0x19 .ok (.device s.device s.front.record) s)
    ∧ exec (.readEquipment c tag) s
        = .next (replied c tag 0x1A .ok (.equipment s.equip s.engine.state s.engine.acq s.switch) s)
    ∧ (∀ w, 8 ≤ w → exec (.readWindow c tag w) s = .next (replied c tag 0x0F .badValue .none s))
    ∧ ∀ w : WindowNo, ∃ covered : RouteSet,
        exec (.readWindow c tag w) s
          = .next (replied c tag 0x0F .ok
              (.windowRead s.windows[w].settings s.windows[w].remaining s.clock.now s.clock.running covered) s)
        ∧ ∀ r : RouteNo, has covered r = true ↔
            ∃ v : WindowNo, s.windows[v].remaining ≠ none ∧ has s.windows[v].settings.routes r = true)
  ∧ (∀ (c : Client) (tag : Byte) (s : State), Ready c s →
    (∀ n, 48 ≤ n → exec (.readRoute c tag n) s = .next (replied c tag 0x07 .badValue .none s)
      ∧ ∀ first, exec (.readResult c tag n first) s = .next (replied c tag 0x08 .badValue .none s))
    ∧ ∀ r : RouteNo,
      (routeStatus s.routes[r] = .unused ↔ s.routes[r].body = none)
      ∧ (routeStatus s.routes[r] = .baselined ↔ ∃ b, s.routes[r].body = some b ∧ b.baseline ≠ none)
      ∧ exec (.readRoute c tag r) s = .next (replied c tag 0x07 .ok
        (.route r (routeStatus s.routes[r]) s.routes[r].revision s.routes[r].holds (inBarred s.device.barred r)
          (s.queue.entries.any fun e => e.running.isSome && decide (e.route = r))
          (s.routes[r].body.map fun b =>
            { label := b.label, acq := b.acq, judging := b.judging, span := pulseSpan b.acq.pulse b.acq.spacing
              dzEff := deadZone b.acq b.judging.dead
              baseline := b.baseline.map fun x =>
                { blocks := x.blocks.length, eb := x.eb, dEb := distance b.acq.spacing b.acq.index x.eb, time := x.time
                  acq := x.acq } })) s)
      ∧ (∀ n, 15 < n → exec (.readResult c tag r (some n)) s = .next (replied c tag 0x08 .badValue .none s))
      ∧ ∀ first : Option Nat, first.getD 0 ≤ 15 →
        (s.routes[r].body = none → exec (.readResult c tag r first) s = .next (replied c tag 0x08 .noRoute .none s))
        ∧ ∀ b, s.routes[r].body = some b →
          exec (.readResult c tag r first) s = .next (replied c tag 0x08 .ok
            (.result (first.getD 0) s.records[r]
              { record := s.faults[r], candidate := s.cands[r], confirm := b.judging.confirm }) s))

/-- READ_QUEUE (R124): a start outside 1..32 is refused; otherwise up to 16 entries from that position, each with its state,
for a WAITING one why it is or is not eligible (R109), and the client's open marks. -/
def Obligations.ReadQueueShowsTheQueue : Prop :=
  ∀ (c : Client) (tag : Byte) (s : State), Ready c s →
    (∀ start, start = 0 ∨ 32 < start → exec (.readQueue c tag start) s = .next (replied c tag 0x04 .badValue .none s))
    ∧ ∀ start, 1 ≤ start → start ≤ 32 → ∃ rows : List QueueRow,
        exec (.readQueue c tag start) s
          = .next (replied c tag 0x04 .ok
              (.queue s.queue.entries.length s.engine.state rows
                ((perGet s.queue.marks c).map fun m => (m.number, m.wait.length))) s)
        ∧ rows.length = min 16 (s.queue.entries.length - (start - 1))
        ∧ ∀ i (h : i < rows.length) (h' : start - 1 + i < s.queue.entries.length),
            let e := s.queue.entries[start - 1 + i]
            rows[i] =
              { position := start + i, id := e.id, route := e.route, kind := e.kind, cls := e.cls, reqs := e.reqs
                standing := match e.running with
                  | some acq => .inl acq
                  | none => .inr
                      (if s.routes[e.route].holds ≠ 0 then .held
                      else if inBarred s.device.barred e.route then .barred
                      else if e.cls = .routine ∧ isCovered s e.route = false then .noWindow
                      else .eligible) }

/-- READ_TRACE makes its checks in the order of R38: the count, a buffer that holds a whole trace, its acquisition number, the
offset; then it gives the labels, the saturation figures and the cells from the offset on (R38, R39). While a block write that a
reset cut off is in flight it is STALE for every acquisition (R40); that the reply then names the trace still held is the
model's reading (log entry 17).
READ_BASELINE makes its checks in the order of R98: the route, the count, a defined route, a baseline, the expected
acquisition number, the offset; then it gives the levels of the route's blocks from the offset on, up to the trace length
(R98, R99). The pool summary gives the counts of the free pool and the bad set, and of a reservation its size, its route and
HELD, or WRITING with the count written good (R99). -/
def Obligations.TracesAndBaselinesAreRead : Prop :=
  (∀ s : State,
    (poolSummary s).free = s.store.free.length ∧ (poolSummary s).bad = s.store.bad.length
    ∧ (s.store.resv = none → (poolSummary s).resvSize = 0 ∧ (poolSummary s).resv = none)
    ∧ ∀ r, s.store.resv = some r →
      (poolSummary s).resvSize = r.blocks.length
      ∧ (r.phase = .held → (poolSummary s).resv = some (r.route, none))
      ∧ ∀ w data, r.phase = .writing w data → (poolSummary s).resv = some (r.route, some w))
  ∧ (∀ (c : Client) (tag : Byte) (acq offset count : Nat) (s : State), Ready c s →
    (count = 0 ∨ 64 < count →
      exec (.readTrace c tag acq offset count) s = .next (replied c tag 0x09 .badValue .none s))
    ∧ (1 ≤ count → count ≤ 64 →
      ((s.trace = .empty ∨ ∃ labels sat, s.trace = .filling labels sat) →
        exec (.readTrace c tag acq offset count) s = .next (replied c tag 0x09 .stale (.traceStale none) s))
      ∧ ∀ labels dz em cells, s.trace = .held labels dz em cells →
        (labels.acq ≠ acq ∨ writeInFlight s = true ∧ s.engine.state ≠ .committing →
          exec (.readTrace c tag acq offset count) s
            = .next (replied c tag 0x09 .stale (.traceStale (some labels.acq)) s))
        ∧ (labels.acq = acq → writeInFlight s = false ∨ s.engine.state = .committing → cells.length ≤ offset →
          exec (.readTrace c tag acq offset count) s = .next (replied c tag 0x09 .badValue .none s))
        ∧ (labels.acq = acq → writeInFlight s = false ∨ s.engine.state = .committing → offset < cells.length →
          exec (.readTrace c tag acq offset count) s = .next (replied c tag 0x09 .ok
            (.trace labels dz em (satPositions cells).length (satPositions cells).head? offset
              ((cells.drop offset).take count)) s))))
  ∧ (∀ (c : Client) (tag : Byte) (offset count : Nat) (expected : Option Nat) (s : State), Ready c s →
    (∀ n, 48 ≤ n → exec (.readBaseline c tag n offset count expected) s
      = .next (replied c tag 0x0A .badValue .none s))
    ∧ ∀ r : RouteNo,
      (count = 0 ∨ 64 < count →
        exec (.readBaseline c tag r offset count expected) s = .next (replied c tag 0x0A .badValue .none s))
      ∧ (1 ≤ count → count ≤ 64 →
        (s.routes[r].body = none →
          exec (.readBaseline c tag r offset count expected) s
            = .next (replied c tag 0x0A .noRoute (.baselineNone s.routes[r].revision (poolSummary s)) s))
        ∧ ∀ b, s.routes[r].body = some b →
          (b.baseline = none →
            exec (.readBaseline c tag r offset count expected) s
              = .next (replied c tag 0x0A .noEntry (.baselineNone s.routes[r].revision (poolSummary s)) s))
          ∧ ∀ x, b.baseline = some x →
            let head : BaselineHead :=
              { revision := s.routes[r].revision, len := b.acq.len, eb := x.eb, time := x.time, acq := x.acq
                blocks := x.blocks.length }
            ((∃ a, expected = some a ∧ a ≠ x.acq) →
              exec (.readBaseline c tag r offset count expected) s
                = .next (replied c tag 0x0A .stale (.baselineStale (poolSummary s) head) s))
            ∧ (expected = none ∨ expected = some x.acq → b.acq.len ≤ offset →
              exec (.readBaseline c tag r offset count expected) s = .next (replied c tag 0x0A .badValue .none s))
            ∧ (expected = none ∨ expected = some x.acq → offset < b.acq.len →
              exec (.readBaseline c tag r offset count expected) s
                = .next (replied c tag 0x0A .ok
                    (.baseline (poolSummary s) head offset
                      (((x.blocks.flatMap (readBlock s.store.mem)).drop offset).take (min count (b.acq.len - offset)))) s))))

/-! ### The Test Queue -/

/-- TEST is refused, changing nothing, by the first of the checks of R105 that fails: a value not in Table 11-8, an UNUSED
route, a held one, a barred one, and 32 entries standing when no WAITING entry of the route and kind can be joined. -/
def Obligations.TestRefusals : Prop :=
  (kindOf 1 = some .check ∧ kindOf 2 = some .capture ∧ classOf 1 = some .urgent ∧ classOf 2 = some .routine
    ∧ ∀ n, n ≠ 1 → n ≠ 2 → kindOf n = none ∧ classOf n = none)
  ∧ ∀ (c : Client) (tag : Byte) (s : State), Ready c s →
    (∀ route kind cls, 48 ≤ route ∨ (kind ≠ 1 ∧ kind ≠ 2) ∨ (cls ≠ 1 ∧ cls ≠ 2) →
      exec (.test c tag route kind cls) s = .next (replied c tag 0x01 .badValue .none s))
    ∧ ∀ (r : RouteNo) kind cls k cl, kindOf kind = some k → classOf cls = some cl →
      (s.routes[r].body = none → exec (.test c tag r kind cls) s = .next (replied c tag 0x01 .noRoute .none s))
      ∧ (s.routes[r].body ≠ none →
        (s.routes[r].holds ≠ 0 →
          exec (.test c tag r kind cls) s
            = .next (replied c tag 0x01 .held (.testHeld s.routes[r].holds (inBarred s.device.barred r)) s))
        ∧ (s.routes[r].holds = 0 →
          (inBarred s.device.barred r = true →
            exec (.test c tag r kind cls) s = .next (replied c tag 0x01 .barred (.testBarred s.device.barred) s))
          ∧ (inBarred s.device.barred r = false → 32 ≤ s.queue.entries.length →
            (∀ e ∈ s.queue.entries, isWaiting e = true → ¬(e.route = r ∧ e.kind = k)) →
            exec (.test c tag r kind cls) s = .next (replied c tag 0x01 .queueFull .none s))))

/-- TEST of an open route. With no WAITING entry of the route and kind it creates one, an URGENT one after the last URGENT entry
and a ROUTINE one at the end, under the first free id from the counter on (R102, R104, R106); then the port is given, for an
URGENT entry with preemption. With a WAITING one it joins it; an URGENT join of a ROUTINE entry moves it to the last place of
the URGENT ones, and the port is given (R107). The reply shows the place of the entry after that; while the engine takes nothing,
it is the place it was put in. What giving the port does is said by ThePortIsGiven. The place of an entry that has already left
the queue is a free value (the model's choice, log entry 5). -/
def Obligations.TestWaits : Prop :=
  ∀ (c : Client) (tag : Byte) (r : RouteNo) (kind cls : Nat) (k : TestKind) (cl : TestClass) (s : State),
    Ready c s → QueueLaw s → kindOf kind = some k → classOf cls = some cl →
    s.routes[r].body ≠ none → isClosed s r = false →
      ((∀ e ∈ s.queue.entries, isWaiting e = true → ¬(e.route = r ∧ e.kind = k)) → s.queue.entries.length < 32 →
        ∀ pre post, s.queue.entries = pre ++ post →
          (cl = .urgent → (∀ e ∈ pre, e.cls = .urgent) ∧ ∀ e ∈ post, e.cls = .routine) →
          (cl = .routine → post = []) →
          ∃ id u, FirstFree s.queue.entries s.queue.counter id ∧ 1 ≤ id ∧ id ≤ 65535
            ∧ u = { s with queue :=
                { entries := pre ++ { id := id, route := r, kind := k, cls := cl, reqs := add 0 (bitOf c), running := none }
                    :: post
                  counter := if id = 65535 then 1 else id + 1
                  marks := s.queue.marks } }
            ∧ (EngineFixed s ∨ cl = .routine ∧ s.engine.state ≠ .idle →
              exec (.test c tag r kind cls) s = .next (replied c tag 0x01 .ok (.test id .new (pre.length + 1)) u))
            ∧ TestAnswered c tag id .new (if cl = .urgent then arbitrate u else handOut u) (exec (.test c tag r kind cls) s))
      ∧ ∀ pre e post, s.queue.entries = pre ++ e :: post → isWaiting e = true → e.route = r → e.kind = k →
        ((cl = .routine ∨ e.cls = .urgent) →
          exec (.test c tag r kind cls) s = .next (replied c tag 0x01 .ok (.test e.id .joined (pre.length + 1))
            { s with queue := { s.queue with
              entries := pre ++ { e with reqs := add e.reqs (bitOf c) } :: post } }))
        ∧ (cl = .urgent → e.cls = .routine →
          ∀ ups rest, pre ++ post = ups ++ rest → (∀ x ∈ ups, x.cls = .urgent) → (∀ x ∈ rest, x.cls = .routine) →
          ∃ u, u = { s with queue := { s.queue with
              entries := ups ++ { e with reqs := add e.reqs (bitOf c), cls := .urgent } :: rest } }
            ∧ (EngineFixed s →
              exec (.test c tag r kind cls) s = .next (replied c tag 0x01 .ok (.test e.id .joined (ups.length + 1)) u))
            ∧ TestAnswered c tag e.id .joined (arbitrate u) (exec (.test c tag r kind cls) s))

/-- R114: an URGENT TEST of an open route while a ROUTINE entry runs in SWITCHING, LIVE_CHECK or FIRING, no URGENT entry being
eligible before it. The new entry, or the WAITING ROUTINE one that the TEST makes URGENT, stands last of the URGENT ones; the
running acquisition is given up, its entry waits again in its place or merges with its twin (R112, R113), and the URGENT entry,
which may be that twin, is taken at once, unless it is a capture that finds the pool short.
The shot count of an engine that no longer runs a test is 0: the model's choice (log entry 37). -/
def Obligations.UrgentTestsPreempt : Prop :=
  ∀ (c : Client) (tag : Byte) (r : RouteNo) (kind : Nat) (k : TestKind) (b : RouteBody) (e : Entry) (s : State),
    Ready c s → QueueLaw s → RunLaw s → kindOf kind = some k → s.routes[r].body = some b → isClosed s r = false →
    canStop s.engine.state = true → e ∈ s.queue.entries → isWaiting e = false → e.cls = .routine →
    (∀ x ∈ s.queue.entries, x.cls = .urgent → isEligible s x = false) →
    ∀ (word : TestWord) (new : Entry) (counter : Nat) (ups rest : List Entry) (u : State),
      (word = .new
          ∧ (∀ x ∈ s.queue.entries, isWaiting x = true → ¬(x.route = r ∧ x.kind = k)) ∧ s.queue.entries.length < 32
          ∧ FirstFree s.queue.entries s.queue.counter new.id ∧ counter = (if new.id = 65535 then 1 else new.id + 1)
          ∧ new = { id := new.id, route := r, kind := k, cls := .urgent, reqs := add 0 (bitOf c), running := none }
          ∧ s.queue.entries = ups ++ rest
        ∨ word = .joined ∧ counter = s.queue.counter
          ∧ ∃ w ∈ s.queue.entries, isWaiting w = true ∧ w.route = r ∧ w.kind = k ∧ w.cls = .routine
            ∧ new = { w with reqs := add w.reqs (bitOf c), cls := .urgent }
            ∧ s.queue.entries.filter (fun x => x.id != w.id) = ups ++ rest) →
      (∀ x ∈ ups, x.cls = .urgent) → (∀ x ∈ rest, x.cls = .routine) →
      u = { s with queue := { entries := ups ++ new :: rest, counter := counter, marks := s.queue.marks } } →
        ∃ v pre x post, GivenUp e u v ∧ FirstEligible pre x post v ∧ x.id = new.id ∧ x.cls = .urgent ∧ x.route = r ∧ x.kind = k
          ∧ (HasBlocks x b v → ∃ t, Taken pre x post b v t
            ∧ exec (.test c tag r kind 1) s = .next (replied c tag 0x01 .ok (.test x.id word (pre.length + 1)) t))

/-- Giving the port (R110, R112 to R116). The hand-out takes the first eligible entry while the engine is IDLE, again after a
capture that finds the pool short. A new or upgraded URGENT entry first stops a running ROUTINE one; a coverage report first
stops a running ROUTINE one that is no longer covered; a report of the Route Table first stops the running one if its route has
just been closed, then preempts. A stop order has its effect in SWITCHING, LIVE_CHECK and FIRING alone.
What these words mean: a route is closed while its hold set is not empty or it lies in the barred range, both ends included
(R80, R82); it is covered while the route set of an OPEN window has it (R150); an entry is eligible while it is WAITING, its
route is not closed and it is URGENT or its route is covered (R109).
The shot count of an engine that no longer runs a test is 0: the model's choice (log entry 37). -/
def Obligations.ThePortIsGiven : Prop :=
  (∀ (range : Option (Nat × Nat)) (r : RouteNo),
    inBarred range r = true ↔ ∃ first last, range = some (first, last) ∧ first ≤ r.val ∧ r.val ≤ last)
  ∧ (∀ (s : State) (r : RouteNo),
    (isClosed s r = true ↔ s.routes[r].holds ≠ 0
      ∨ ∃ first last, s.device.barred = some (first, last) ∧ first ≤ r.val ∧ r.val ≤ last)
    ∧ (isCovered s r = true ↔ ∃ w : WindowNo, s.windows[w].remaining ≠ none ∧ s.windows[w].settings.routes.getLsbD r = true)
    ∧ ∀ cls, mayRun s r cls = true ↔ isClosed s r = false ∧ (cls = .urgent ∨ isCovered s r = true))
  ∧ (∀ (s : State) (e : Entry),
    (isWaiting e = true ↔ e.running = none)
    ∧ (isEligible s e = true ↔ e.running = none ∧ s.routes[e.route].holds = 0
      ∧ (∀ first last, s.device.barred = some (first, last) → ¬(first ≤ e.route.val ∧ e.route.val ≤ last))
      ∧ (e.cls = .urgent
        ∨ ∃ w : WindowNo, s.windows[w].remaining ≠ none ∧ s.windows[w].settings.routes.getLsbD e.route = true)))
  ∧ (∀ st : EngineState, canStop st = true ↔ st = .switching ∨ st = .liveCheck ∨ st = .firing)
  ∧ ∀ s : State, QueueLaw s → RunLaw s → EntryLaw s →
    HandsOut s (handOut s)
    ∧ (∃ u, StopOrder (Preempted s) s u ∧ HandsOut u (arbitrate s))
    ∧ (∃ u, StopOrder (Uncovered s) s u ∧ HandsOut u (coverageReport s))
    ∧ ∀ closed : RouteNo → Bool, ∃ u v,
        StopOrder (JustClosed closed s) s u ∧ StopOrder (Preempted u) u v ∧ HandsOut v (routeReport closed s)

/-- TEST that the idle engine takes at once, no other entry being eligible: the new entry is RUNNING under the next acquisition
number, the acquisition settings that stand are copied, a capture holds the lowest-numbered free blocks, and the switch is sent
to the port, or the live check starts where it stands there already (R1, R5, R6, R7, R8, R86, R87, R110). -/
def Obligations.TestTaken : Prop :=
  ∀ (c : Client) (tag : Byte) (r : RouteNo) (kind cls : Nat) (k : TestKind) (cl : TestClass) (b : RouteBody) (s : State),
    Ready c s → QueueLaw s → kindOf kind = some k → classOf cls = some cl →
    s.routes[r].body = some b → mayRun s r cl = true → s.engine.state = .idle →
    (∀ e ∈ s.queue.entries, isWaiting e = true ∧ isEligible s e = false ∧ ¬(e.route = r ∧ e.kind = k)) →
    s.queue.entries.length < 32 →
    ∀ pre post, s.queue.entries = pre ++ post →
      (cl = .urgent → (∀ e ∈ pre, e.cls = .urgent) ∧ ∀ e ∈ post, e.cls = .routine) →
      (cl = .routine → post = []) →
    ∀ store : Store,
      (k = .check → store = s.store) →
      (k = .capture → b.acq.len / 1024 ≤ s.store.free.length
        ∧ store = { free := s.store.free.drop (b.acq.len / 1024), bad := s.store.bad, mem := s.store.mem
                    resv := some { route := r, acq := (s.engine.acq + 1) % 65536
                                   blocks := s.store.free.take (b.acq.len / 1024), phase := .held } }) →
      ∃ id, FirstFree s.queue.entries s.queue.counter id
        ∧ ∀ acq queue running, acq = (s.engine.acq + 1) % 65536 →
          queue =
            { entries := pre
                ++ { id := id, route := r, kind := k, cls := cl, reqs := add 0 (bitOf c), running := some acq } :: post
              counter := if id = 65535 then 1 else id + 1
              marks := s.queue.marks } →
          running = { id := id, route := r, kind := k, cls := cl, settings := b.acq } →
          (s.switch ≠ .standing (.port r) →
            exec (.test c tag r kind cls) s = .next (replied c tag 0x01 .ok (.test id .new (pre.length + 1))
              { s with
                queue := queue, store := store, switch := .moving (.port r)
                engine := { s.engine with state := .switching, acq := acq, running := some running, shotCount := 0
                                          timer := some (.switch (timeoutMs s.device.timeout)) } }))
          ∧ (s.switch = .standing (.port r) →
            exec (.test c tag r kind cls) s = .next (replied c tag 0x01 .ok (.test id .new (pre.length + 1))
              { s with
                queue := queue, store := store, front := { s.front with checking := true }
                engine := { s.engine with state := .liveCheck, acq := acq, running := some running, shotCount := 0
                                          timer := some .liveCheck } }))

/-- A capture that the idle engine takes with too few free blocks finishes STORE_FULL within the take: its acquisition number is
used, its record and TEST_DONE entry are written, DONE is raised to its client and the engine stays IDLE with the switch as it
stands (R5, R7, R57, R119). The position in the reply, which the manual does not give, is a free value (the model's choice,
log entry 5). -/
def Obligations.CaptureFindsTheStoreFull : Prop :=
  ∀ (c : Client) (tag : Byte) (r : RouteNo) (cls : Nat) (cl : TestClass) (b : RouteBody) (s : State),
    Ready c s → QueueLaw s → MarkLaw s → classOf cls = some cl →
    s.routes[r].body = some b → mayRun s r cl = true → s.engine.state = .idle →
    (∀ e ∈ s.queue.entries, isWaiting e = true ∧ isEligible s e = false ∧ ¬(e.route = r ∧ e.kind = .capture)) →
    s.queue.entries.length < 32 → s.store.free.length < b.acq.len / 1024 →
      ∃ id t, FirstFree s.queue.entries s.queue.counter id
        ∧ exec (.test c tag r 2 cls) s
            = .next (replied c tag 0x01 .ok (.test id .new (Config.gonePosition s.freeCount).toNat) t)
        ∧ t = { s with
            engine := { s.engine with acq := (s.engine.acq + 1) % 65536 }
            queue := { s.queue with counter := if id = 65535 then 1 else id + 1 }
            records := s.records.set r (some
              { id := id, acq := (s.engine.acq + 1) % 65536, kind := .capture, cls := cl, time := s.clock.now
                outcome := .storeFull, len := b.acq.len, fields := none, judgement := none })
            freeCount := s.freeCount + 1
            log := t.log
            notices := t.notices }
        ∧ LoggedAt s.clock.now s t [.testDone r id .capture .storeFull (add 0 (bitOf c)) none]
        ∧ ∀ d, perGet t.notices d
            = raisesOf (logRaise s.log d ++ (if d = c then [.done] else [])) (perGet s.notices d)

/-- CANCEL (R117, R118): of an id no entry holds, by a client that did not request it, by one of several requesters, of a
RUNNING entry that can no longer be stopped, and by the last requester of a WAITING entry, which leaves the queue with a
CANCELLED entry in the log and without a DONE notice.
CANCEL by the last requester of the RUNNING entry while it can be stopped: the acquisition stops (laser off, reservation
returned, no equipment error, no test record), the entry leaves the queue as CANCELLED and the engine is IDLE; the hand-out is
made, which changes nothing where no other entry is eligible (R17, R110, R118).
An id that leaves the marks (R123): a mark stays open, without the id, exactly when another id is left in its wait set; the
marks whose wait set held nothing but the id complete, in the order of their numbers.
The shot count of an engine that no longer runs a test is 0: the model's choice (log entry 37). -/
def Obligations.CancelRules : Prop :=
  (∀ (id : Nat) (ms : List Mark),
    (∀ m, m ∈ keptMarks id ms ↔
      ∃ x ∈ ms, m = { number := x.number, wait := x.wait.filter fun i => decide (i ≠ id) } ∧ ∃ i ∈ x.wait, i ≠ id)
    ∧ (∀ n, n ∈ completedMarks id ms ↔ ∃ x ∈ ms, x.number = n ∧ ∀ i ∈ x.wait, i = id)
    ∧ ((keptMarks id ms).map Mark.number).Sublist (ms.map Mark.number)
    ∧ (completedMarks id ms).Sublist (ms.map Mark.number)
    ∧ (ms.Pairwise (fun a b => a.number < b.number) →
      (keptMarks id ms).Pairwise (fun a b => a.number < b.number) ∧ (completedMarks id ms).Pairwise (· < ·)))
  ∧ (∀ (c : Client) (tag : Byte) (s : State), Ready c s → QueueLaw s →
    (∀ id, (∀ e ∈ s.queue.entries, e.id ≠ id) →
      exec (.cancel c tag id) s = .next (replied c tag 0x02 .noEntry .none s))
    ∧ ∀ e ∈ s.queue.entries,
      (has e.reqs (bitOf c) = false →
        exec (.cancel c tag e.id) s = .next (replied c tag 0x02 .notRequester .none s))
      ∧ (has e.reqs (bitOf c) = true → del e.reqs (bitOf c) ≠ 0 →
        ∃ t, exec (.cancel c tag e.id) s = .next (replied c tag 0x02 .ok (.cancel (del e.reqs (bitOf c)) .kept) t)
          ∧ t = { s with
              queue :=
                { entries := s.queue.entries.map fun x => if x.id = e.id then { x with reqs := del e.reqs (bitOf c) } else x
                  counter := s.queue.counter
                  marks := perSet s.queue.marks c (keptMarks e.id (perGet s.queue.marks c)) }
              notices := t.notices }
          ∧ ∀ d, perGet t.notices d
              = raisesOf (if d = c then markRaises e.id s c else []) (perGet s.notices d))
      ∧ (has e.reqs (bitOf c) = true → del e.reqs (bitOf c) = 0 →
        (∀ acq, e.running = some acq → (canStop s.engine.state = false ∨ s.engine.acq ≠ acq) →
          exec (.cancel c tag e.id) s = .next (replied c tag 0x02 .routeBusy .none s))
        ∧ (e.running = none →
          ∃ t, exec (.cancel c tag e.id) s = .next (replied c tag 0x02 .ok (.cancel 0 .removed) t)
            ∧ t = { s with queue := t.queue, log := t.log, notices := t.notices }
            ∧ t.queue.entries = s.queue.entries.filter (fun x => x.id != e.id)
            ∧ t.queue.counter = s.queue.counter
            ∧ (∀ d, perGet t.queue.marks d = keptMarks e.id (perGet s.queue.marks d))
            ∧ LoggedAt s.clock.now s t [.testDone e.route e.id e.kind .cancelled 0 (some c)]
            ∧ ∀ d, perGet t.notices d
                = raisesOf (logRaise s.log d ++ markRaises e.id s d) (perGet s.notices d))))
  ∧ (∀ (c : Client) (tag : Byte) (e : Entry) (s : State), Ready c s → QueueLaw s →
    e ∈ s.queue.entries → e.running = some s.engine.acq → canStop s.engine.state = true →
    has e.reqs (bitOf c) = true → del e.reqs (bitOf c) = 0 →
      ∃ t, exec (.cancel c tag e.id) s = .next (replied c tag 0x02 .ok (.cancel 0 .removed) (handOut t))
        ∧ (NoneEligible s → handOut t = t)
        ∧ t = { s with
            front := { s.front with laser := false, checking := false }
            engine := engineFree .idle none s.engine
            store := t.store, queue := t.queue, log := t.log, notices := t.notices }
        ∧ ReservationReturned s t
        ∧ t.queue.entries = s.queue.entries.filter (fun x => x.id != e.id) ∧ t.queue.counter = s.queue.counter
        ∧ (∀ d, perGet t.queue.marks d = keptMarks e.id (perGet s.queue.marks d))
        ∧ LoggedAt s.clock.now s t [.testDone e.route e.id e.kind .cancelled 0 (some c)]
        ∧ ∀ d, perGet t.notices d = raisesOf (logRaise s.log d ++ markRaises e.id s d) (perGet s.notices d))

/-- MARK (R122): refused with 4 marks open; otherwise it takes the client's lowest free number, and waits for the ids of the
entries the client requests, or completes at once when there are none. -/
def Obligations.MarkOpensOrCompletes : Prop :=
  ∀ (c : Client) (tag : Byte) (s : State), Ready c s →
    (4 ≤ (perGet s.queue.marks c).length →
      exec (.mark c tag) s = .next (replied c tag 0x03 .marksFull .none s))
    ∧ ((perGet s.queue.marks c).length < 4 →
      ∃ n, n < 4 ∧ (∀ m ∈ perGet s.queue.marks c, m.number ≠ n)
        ∧ (∀ k, k < n → ∃ m ∈ perGet s.queue.marks c, m.number = k)
        ∧ ((∀ e ∈ s.queue.entries, has e.reqs (bitOf c) = false) →
          exec (.mark c tag) s = .next (replied c tag 0x03 .ok (.mark n 0)
            { s with notices := perSet s.notices c (raiseNotice (.mark n) (perGet s.notices c)) }))
        ∧ ((∃ e ∈ s.queue.entries, has e.reqs (bitOf c) = true) →
          ∃ ms, ms.Perm ({ number := n
                           wait := (s.queue.entries.filter fun e => has e.reqs (bitOf c)).map Entry.id }
                         :: perGet s.queue.marks c)
            ∧ ((perGet s.queue.marks c).Pairwise (fun a b => a.number < b.number) →
                ms.Pairwise (fun a b => a.number < b.number))
            ∧ exec (.mark c tag) s = .next (replied c tag 0x03 .ok
                (.mark n (s.queue.entries.filter fun e => has e.reqs (bitOf c)).length)
                { s with queue := { s.queue with marks := perSet s.queue.marks c ms } })))

/-! ### The Route Table -/

/-- Which definitions are refused and how values are clamped: the refused field named is the first in the order of Table 4-1
(R65), each of the seven clamped fields is brought to the near end of its range and listed when it was outside (R66), and the
effective dead zone is the larger of the dead zone and the pulse span, which is rounded up (R31, R67).
DEFINE_ROUTE is refused, changing nothing, by the first of the checks of R64 that fails: the route number, the revision, a refused
value, the dead-zone check, and new acquisition settings while an entry of the route runs. -/
def Obligations.DefinitionsAreRefusedOrClamped : Prop :=
  ((List.range 6).map pulseNs = [10, 30, 100, 300, 1000, 3000] ∧ (List.range 5).map spacingCm = [25, 50, 100, 200, 400])
  ∧ (∀ d : RouteDef,
    (∀ f, refusedField d = some f ↔ FieldRefused d f ∧ ∀ g, g < f → ¬FieldRefused d g)
    ∧ acqOf d = { pulse := d.pulse, spacing := d.spacing, len := d.len, shots := d.shots, index := d.index }
    ∧ (judgingOf d).dead = d.dead
    ∧ ClampedTo 1 32 d.width (judgingOf d).width ∧ ClampedTo 5 1000 d.tLoss (judgingOf d).tLoss
    ∧ ClampedTo 10 3000 d.tTotal (judgingOf d).tTotal ∧ ClampedTo 1 255 d.tEnd (judgingOf d).tEnd
    ∧ ClampedTo 50 2000 d.tReflect (judgingOf d).tReflect ∧ ClampedTo 0 1000 d.floor (judgingOf d).floor
    ∧ ClampedTo 1 4 d.confirm (judgingOf d).confirm
    ∧ (∀ code v, (code, v) ∈ clampedFields d ↔
        ∃ sent, sent ≠ v ∧ (code, sent, v) ∈
          [(8, d.width, (judgingOf d).width), (9, d.tLoss, (judgingOf d).tLoss), (10, d.tTotal, (judgingOf d).tTotal),
           (11, d.tEnd, (judgingOf d).tEnd), (12, d.tReflect, (judgingOf d).tReflect),
           (13, d.floor, (judgingOf d).floor), (14, d.confirm, (judgingOf d).confirm)])
    ∧ ((clampedFields d).map Prod.fst).Pairwise (· < ·)
    ∧ deadZone (acqOf d) d.dead = max d.dead (pulseSpan d.pulse d.spacing)
    ∧ pulseNs d.pulse * 20 ≤ pulseSpan d.pulse d.spacing * spacingCm d.spacing
    ∧ pulseSpan d.pulse d.spacing * spacingCm d.spacing < pulseNs d.pulse * 20 + spacingCm d.spacing)
  ∧ ∀ (c : Client) (tag : Byte) (d : RouteDef) (s : State), Ready c s → c ≠ .ls →
    (∀ n rev, 48 ≤ n → exec (.defineRoute c tag n rev d) s = .next (replied c tag 0x05 .badValue (.field 0) s))
    ∧ ∀ r : RouteNo,
      (∀ rev, rev ≠ s.routes[r].revision →
        exec (.defineRoute c tag r rev d) s = .next (replied c tag 0x05 .stale (.revision s.routes[r].revision) s))
      ∧ (∀ f, refusedField d = some f →
        exec (.defineRoute c tag r s.routes[r].revision d) s = .next (replied c tag 0x05 .badValue (.field f) s))
      ∧ (refusedField d = none → d.len < deadZone (acqOf d) d.dead + 2 * (judgingOf d).width →
        exec (.defineRoute c tag r s.routes[r].revision d) s = .next (replied c tag 0x05 .badValue (.field 15) s))
      ∧ (refusedField d = none → deadZone (acqOf d) d.dead + 2 * (judgingOf d).width ≤ d.len →
        (∃ b, s.routes[r].body = some b ∧ b.acq ≠ acqOf d) → (∃ e ∈ s.queue.entries, isWaiting e = false ∧ e.route = r) →
        exec (.defineRoute c tag r s.routes[r].revision d) s = .next (replied c tag 0x05 .routeBusy .none s))

/-- An accepted DEFINE_ROUTE stores the label and the settings as clamped, raises the revision by one and clears the candidate;
it keeps the baseline unless acquisition settings change. A discarded baseline's blocks join the free pool and the condition
goes to UNKNOWN, which is logged after the ROUTE_CHANGE entry and noticed as a clear (R66, R69 to R72, R94, R128, R134). -/
def Obligations.DefineRouteAccepted : Prop :=
  ∀ (c : Client) (tag : Byte) (r : RouteNo) (d : RouteDef) (s : State), Ready c s → c ≠ .ls →
    refusedField d = none → deadZone (acqOf d) d.dead + 2 * (judgingOf d).width ≤ d.len →
    ((∃ e ∈ s.queue.entries, isWaiting e = false ∧ e.route = r) → ∀ b, s.routes[r].body = some b → b.acq = acqOf d) →
      ∀ status data rev label, rev = (s.routes[r].revision + 1) % 65536 →
        (clampedFields d = [] → status = .ok ∧ data = .revision rev) →
        (clampedFields d ≠ [] → status = .okClamped ∧ data = .clamped (clampedFields d) rev) →
        (d.label = none ∨ d.label = some [] → label = none) → (∀ ch cs, d.label = some (ch :: cs) → label = d.label) →
        (∀ keep,
          (s.routes[r].body = none → keep = none) →
          (∀ b, s.routes[r].body = some b → (b.acq = acqOf d → keep = b.baseline) ∧ (b.baseline = none → keep = none)) →
          (∀ b x, s.routes[r].body = some b → b.baseline = some x → b.acq = acqOf d) →
          ∃ t, exec (.defineRoute c tag r s.routes[r].revision d) s = .next (replied c tag 0x05 status data t)
            ∧ t = { s with
                routes := s.routes.set r
                  { revision := rev, holds := s.routes[r].holds
                    body := some { label := label, acq := acqOf d, judging := judgingOf d, baseline := keep } }
                cands := s.cands.set r none, log := t.log, notices := t.notices }
            ∧ LoggedAt s.clock.now s t [.routeChange r c .defined]
            ∧ ∀ k, perGet t.notices k = raisesOf (logRaise s.log k) (perGet s.notices k))
        ∧ ∀ b x, s.routes[r].body = some b → b.baseline = some x → b.acq ≠ acqOf d →
          ∃ t, exec (.defineRoute c tag r s.routes[r].revision d) s = .next (replied c tag 0x05 status data t)
            ∧ t = { s with
                routes := s.routes.set r
                  { revision := rev, holds := s.routes[r].holds
                    body := some { label := label, acq := acqOf d, judging := judgingOf d, baseline := none } }
                cands := s.cands.set r none, store := { s.store with free := t.store.free }
                faults := if s.faults[r].cond = .unknown then s.faults
                  else s.faults.set r
                    { cond := .unknown, time := s.clock.now, adopting := none, latest := none, agreeing := 0, brk := none
                      events := none, excess := none }
                log := t.log, notices := t.notices }
            ∧ (∀ k, k ∈ t.store.free ↔ k ∈ x.blocks ∨ k ∈ s.store.free)
            ∧ LoggedAt s.clock.now s t (.routeChange r c .defined
                :: if s.faults[r].cond = .unknown then [] else [.faultChange r .unknown none (some c)])
            ∧ ∀ k, perGet t.notices k = raisesOf
                (logRaise s.log k ++ if s.faults[r].cond = .unknown then []
                  else logRaise (logAfterWrite s.clock.now (.routeChange r c .defined) s.log) k ++ [.fault r false])
                (perGet s.notices k)

/-- DELETE_ROUTE: refused for a number above 47, an UNUSED route, a stale revision or a running entry, in that order (R73).
Accepted, it makes the route UNUSED with its revision raised and its hold set kept, removes its test record, frees its
baseline's blocks, sets the condition UNKNOWN, logged and noticed as a clear where it was not UNKNOWN, and removes every WAITING
entry of the route as ROUTE_DELETED, each with its TEST_DONE entry, its DONE notices and the marks it completes (R58, R74, R119,
R120, R123, R135). -/
def Obligations.DeleteRouteRules : Prop :=
  ∀ (c : Client) (tag : Byte) (s : State), Ready c s → c ≠ .ls →
    (∀ n rev, 48 ≤ n → exec (.deleteRoute c tag n rev) s = .next (replied c tag 0x06 .badValue .none s))
    ∧ ∀ r : RouteNo,
      (∀ rev, s.routes[r].body = none → exec (.deleteRoute c tag r rev) s = .next (replied c tag 0x06 .noRoute .none s))
      ∧ ∀ b, s.routes[r].body = some b →
        (∀ rev, rev ≠ s.routes[r].revision →
          exec (.deleteRoute c tag r rev) s = .next (replied c tag 0x06 .stale (.revision s.routes[r].revision) s))
        ∧ ((∃ e ∈ s.queue.entries, isWaiting e = false ∧ e.route = r) →
          exec (.deleteRoute c tag r s.routes[r].revision) s = .next (replied c tag 0x06 .routeBusy .none s))
        ∧ (QueueLaw s → (∀ e ∈ s.queue.entries, e.route = r → isWaiting e = true) →
          ∃ t, exec (.deleteRoute c tag r s.routes[r].revision) s
              = .next (replied c tag 0x06 .ok (.revision ((s.routes[r].revision + 1) % 65536)) t)
            ∧ t = { s with
                routes := s.routes.set r
                  { revision := (s.routes[r].revision + 1) % 65536, holds := s.routes[r].holds, body := none }
                records := s.records.set r none, cands := s.cands.set r none
                store := { s.store with free := t.store.free }
                faults := if s.faults[r].cond = .unknown then s.faults
                  else s.faults.set r
                    { cond := .unknown, time := s.clock.now, adopting := none, latest := none, agreeing := 0, brk := none
                      events := none, excess := none }
                queue := t.queue, log := t.log, notices := t.notices }
            ∧ (∀ k, k ∈ t.store.free ↔ (∃ x, b.baseline = some x ∧ k ∈ x.blocks) ∨ k ∈ s.store.free)
            ∧ t.queue.entries = s.queue.entries.filter (fun e => decide (e.route ≠ r))
            ∧ t.queue.counter = s.queue.counter
            ∧ ∀ (gone : List Entry) (changes : List LogBody), gone = s.queue.entries.filter (fun e => decide (e.route = r)) →
              changes = .routeChange r c .deleted
                :: (if s.faults[r].cond = .unknown then [] else [.faultChange r .unknown none (some c)]) →
              (∀ k, perGet t.queue.marks k = gone.foldl (fun ms e => keptMarks e.id ms) (perGet s.queue.marks k))
              ∧ LoggedAt s.clock.now s t
                  (changes ++ gone.map fun e => .testDone r e.id e.kind .routeDeleted e.reqs none)
              ∧ ∀ k, perGet t.notices k = raisesOf
                  (logRaises s.clock.now changes s.log k
                    ++ (if s.faults[r].cond = .unknown then [] else [.fault r false])
                    ++ leaveRaises s.clock.now .routeDeleted k gone
                        (changes.foldl (fun l b => logAfterWrite s.clock.now b l) s.log) (perGet s.queue.marks k))
                  (perGet s.notices k))

/-- HOLD, RELEASE and CLEAR_HOLDS: the hold set gains or loses the sender, or is emptied, with a HOLD_CHANGE entry
carrying the set after it; a repeated HOLD and a CLEAR_HOLDS of an empty set change nothing, and a RELEASE by a client
that holds nothing is answered NOT_HELD (R77 to R79). Where the set was or becomes empty, the change is reported to the
Test Queue in the same step, which gives the port as ThePortIsGiven says (R82, R111, R116); where the engine can neither
be stopped nor take an entry, that changes nothing. -/
def Obligations.HoldRequests : Prop :=
  ∀ (c : Client) (tag : Byte) (s : State), Ready c s → c ≠ .ls →
    (∀ n, 48 ≤ n → exec (.hold c tag n) s = .next (replied c tag 0x0B .badValue .none s)
      ∧ exec (.release c tag n) s = .next (replied c tag 0x0C .badValue .none s)
      ∧ (c = .cr → exec (.clearHolds c tag n) s = .next (replied c tag 0x0D .badValue .none s)))
    ∧ ∀ (r : RouteNo) (h : HoldSet), h = s.routes[r].holds →
      (has h (bitOf c) = true → exec (.hold c tag r) s = .next (replied c tag 0x0B .ok (.holds h) s))
      ∧ (has h (bitOf c) = false → exec (.release c tag r) s = .next (replied c tag 0x0C .notHeld (.holds h) s))
      ∧ (c = .cr → h = 0 → exec (.clearHolds c tag r) s = .next (replied c tag 0x0D .ok .none s))
      ∧ ∀ new : HoldSet, ∃ t,
        t = { s with routes := s.routes.set r { s.routes[r] with holds := new }, log := t.log, notices := t.notices }
        ∧ LoggedAt s.clock.now s t [.holdChange r c new]
        ∧ (∀ k, perGet t.notices k = raisesOf (logRaise s.log k) (perGet s.notices k))
        ∧ (has h (bitOf c) = false → new = add h (bitOf c) → h ≠ 0 ∨ EngineFixed s →
          exec (.hold c tag r) s = .next (replied c tag 0x0B .ok (.holds new) t))
        ∧ (has h (bitOf c) = true → new = del h (bitOf c) → new ≠ 0 ∨ EngineFixed s →
          exec (.release c tag r) s = .next (replied c tag 0x0C .ok (.holds new) t))
        ∧ (c = .cr → h ≠ 0 → new = 0 → EngineFixed s →
          exec (.clearHolds c tag r) s = .next (replied c tag 0x0D .ok .none t))
        ∧ (has h (bitOf c) = false → new = add h (bitOf c) → h = 0 →
          exec (.hold c tag r) s = .next (replied c tag 0x0B .ok (.holds new) (routeReport (isClosed s) t)))
        ∧ (has h (bitOf c) = true → new = del h (bitOf c) → new = 0 →
          exec (.release c tag r) s = .next (replied c tag 0x0C .ok (.holds new) (routeReport (isClosed s) t)))
        ∧ (c = .cr → h ≠ 0 → new = 0 →
          exec (.clearHolds c tag r) s = .next (replied c tag 0x0D .ok .none (routeReport (isClosed s) t)))

/-- The first HOLD of the route under test, while the acquisition can be stopped: the laser goes off, the reservation is
returned, no equipment error or test record is written, the engine is IDLE, and the entry waits again in its place; where a
twin waits, the earlier of the two takes over the other's requesters, class and places in marks (R4, R17, R82, R112,
R113, R116). No other entry being eligible, nothing is handed out.
The shot count of an engine that no longer runs a test is 0: the model's choice (log entry 37). -/
def Obligations.HoldStopsTheRunningTest : Prop :=
  ∀ (c : Client) (tag : Byte) (r : RouteNo) (e : Entry) (s : State), Ready c s → c ≠ .ls → QueueLaw s → RunLaw s →
    s.routes[r].holds = 0 → inBarred s.device.barred r = false →
    canStop s.engine.state = true → e ∈ s.queue.entries → isWaiting e = false → e.route = r →
    (∀ x ∈ s.queue.entries, x.route ≠ r → isEligible s x = false) →
    ∀ entries marks,
      ((∀ x ∈ s.queue.entries, isWaiting x = true → ¬(x.route = r ∧ x.kind = e.kind)) →
        entries = (s.queue.entries.map fun x => if x.id = e.id then { e with running := none } else x)
          ∧ marks = s.queue.marks) →
      (∀ pre a mid b post, s.queue.entries = pre ++ a :: mid ++ b :: post →
        (a = e ∧ isWaiting b = true ∨ b = e ∧ isWaiting a = true) → a.route = b.route → a.kind = b.kind →
        entries = pre ++ { id := a.id, route := r, kind := e.kind, cls := if b.cls = .urgent then .urgent else a.cls
                           reqs := a.reqs ||| b.reqs, running := none } :: mid ++ post
          ∧ marks = perGen fun k => (perGet s.queue.marks k).map fun m =>
              { m with wait := if m.wait.contains a.id then m.wait.filter (· != b.id)
                               else m.wait.map fun i => if i = b.id then a.id else i }) →
      ∃ t, exec (.hold c tag r) s = .next (replied c tag 0x0B .ok (.holds (add 0 (bitOf c))) t)
        ∧ t = { s with
            front := { s.front with laser := false, checking := false }
            engine := engineFree .idle none s.engine
            routes := s.routes.set r { s.routes[r] with holds := add 0 (bitOf c) }
            queue := { entries := entries, counter := s.queue.counter, marks := marks }
            store := t.store, log := t.log, notices := t.notices }
        ∧ ReservationReturned s t
        ∧ LoggedAt s.clock.now s t [.holdChange r c (add 0 (bitOf c))]
        ∧ ∀ k, perGet t.notices k = raisesOf (logRaise s.log k) (perGet s.notices k)

/-! ### The Timekeeping Unit -/

/-- SET_WINDOW: refused values change nothing (R151); a CLOSED window takes the settings; an OPEN one that stays enabled
keeps its count, cut to a shorter duration (R154); one that is disabled closes at once as EDITED, logged and noticed
(R152, R149). A closing and a changed route set of an OPEN window are reported to the Test Queue in the same step, which
gives the port as ThePortIsGiven says (R111, R115). A duration above 720 is stored as 720. That an `enabled` code above
1 is refused is the model's reading (log entry 24). -/
def Obligations.SetWindowRules : Prop :=
  ∀ (c : Client) (tag : Byte) (d : WindowDef) (s : State), Ready c s → c ≠ .ls →
    (∀ n, 8 ≤ n ∨ 1 < d.enabled ∨ 31 < d.hour ∨ 63 < d.minute ∨ d.duration = 0 →
      exec (.setWindow c tag n d) s = .next (replied c tag 0x0E .badValue .none s))
    ∧ (d.enabled ≤ 1 → d.hour ≤ 31 → d.minute ≤ 63 → 1 ≤ d.duration →
      ∀ (w : WindowNo) (ws : WindowSettings) (status : Status),
        ws = { enabled := d.enabled == 1, hour := d.hour, minute := d.minute, factors := d.factors
               weekdays := d.weekdays, duration := min 720 d.duration, routes := d.routes } →
        status = (if 720 < d.duration then .okClamped else .ok) →
        (s.windows[w].remaining = none →
          exec (.setWindow c tag w d) s = .next (replied c tag 0x0E status (.window ws none)
            { s with windows := s.windows.set w { settings := ws, remaining := none } }))
        ∧ ∀ n, s.windows[w].remaining = some n →
          (d.enabled = 1 → s.windows[w].settings.routes = d.routes ∨ EngineFixed s →
            exec (.setWindow c tag w d) s = .next (replied c tag 0x0E status (.window ws (some (min ws.duration n)))
              { s with windows := s.windows.set w { settings := ws, remaining := some (min ws.duration n) } }))
          ∧ (d.enabled = 1 → s.windows[w].settings.routes ≠ d.routes →
            exec (.setWindow c tag w d) s = .next (replied c tag 0x0E status (.window ws (some (min ws.duration n)))
              (coverageReport
                { s with windows := s.windows.set w { settings := ws, remaining := some (min ws.duration n) } })))
          ∧ (d.enabled = 0 →
            ∃ t, (EngineFixed s →
                exec (.setWindow c tag w d) s = .next (replied c tag 0x0E status (.window ws none) t))
              ∧ exec (.setWindow c tag w d) s = .next (replied c tag 0x0E status (.window ws none) (coverageReport t))
              ∧ t = { s with
                  windows := s.windows.set w { settings := ws, remaining := none }, log := t.log, notices := t.notices }
              ∧ LoggedAt s.clock.now s t [.windowClose w .edited]
              ∧ ∀ k, perGet t.notices k = raisesOf (logRaise s.log k ++ [.window]) (perGet s.notices k)))

/-- SET_CLOCK, START_CLOCK and STOP_CLOCK (R141 to R143): the refusals, the setting with or without a start, the start, and
the stop, which closes every OPEN window in increasing number and reports that to the Test Queue, which gives the port as
ThePortIsGiven says (R115). Each change is logged; a start of a running clock and a stop of a stopped one change nothing. That the
clock reading in the replies has no weekday is the model's choice (log entry 34). -/
def Obligations.ClockRequests : Prop :=
  ∀ (c : Client) (tag : Byte) (s : State), Ready c s → c ≠ .ls →
    (∀ day hour minute start,
      (23 < hour ∨ 59 < minute →
        exec (.setClock c tag day hour minute start) s = .next (replied c tag 0x10 .badValue .none s))
      ∧ (hour ≤ 23 → minute ≤ 59 →
        (s.clock.running = true →
          exec (.setClock c tag day hour minute start) s = .next (replied c tag 0x10 .clockRunning .none s))
        ∧ (s.clock.running = false →
          ∀ (now : Time) (bs : List LogBody), now = { day := day, hour := hour, minute := minute, second := 0 } →
            bs = (.clock c .set :: if start then [.clock c .started] else []) →
            ∃ t, exec (.setClock c tag day hour minute start) s
                = .next (replied c tag 0x10 .ok (.clockRun now start) t)
              ∧ t = { s with clock := { now := now, running := start }, log := t.log, notices := t.notices }
              ∧ LoggedAt now s t bs
              ∧ ∀ k, perGet t.notices k = raisesOf (logRaises now bs s.log k) (perGet s.notices k))))
    ∧ (s.clock.running = true →
      exec (.startClock c tag) s = .next (replied c tag 0x11 .ok (.clock s.clock.now) s))
    ∧ (s.clock.running = false →
      exec (.stopClock c tag) s = .next (replied c tag 0x12 .ok (.clock s.clock.now) s)
      ∧ ∃ t, exec (.startClock c tag) s = .next (replied c tag 0x11 .ok (.clock s.clock.now) t)
        ∧ t = { s with clock := { s.clock with running := true }, log := t.log, notices := t.notices }
        ∧ LoggedAt s.clock.now s t [.clock c .started]
        ∧ ∀ k, perGet t.notices k = raisesOf (logRaise s.log k) (perGet s.notices k))
    ∧ (s.clock.running = true →
      ∀ bs, bs = (LogBody.clock c .stopped
          :: (windowNumbers.filter fun w => s.windows[w].remaining.isSome).map fun w => .windowClose w .clockStopped) →
      ∃ t, (EngineFixed s ∨ (∀ w : WindowNo, s.windows[w].remaining = none) →
          exec (.stopClock c tag) s = .next (replied c tag 0x12 .ok (.clockRun s.clock.now false) t))
        ∧ ((∃ w : WindowNo, s.windows[w].remaining ≠ none) →
          exec (.stopClock c tag) s = .next (replied c tag 0x12 .ok (.clockRun s.clock.now false) (coverageReport t)))
        ∧ t = { s with
            clock := { s.clock with running := false }, windows := t.windows, log := t.log, notices := t.notices }
        ∧ (∀ w : WindowNo, t.windows[w] = { settings := s.windows[w].settings, remaining := none })
        ∧ LoggedAt s.clock.now s t bs
        ∧ ∀ k, perGet t.notices k = raisesOf
            (logRaises s.clock.now bs s.log k ++ if ∃ w : WindowNo, s.windows[w].remaining ≠ none then [.window] else [])
            (perGet s.notices k))

/-! ### The Notice Unit and the Result Log -/

/-- How a raise is taken (R161, R165, R166, R173): by the client's switches; a taken raise sets its item; in LEVEL mode the line
is then asserted; in PULSE mode a rise of the kind asserts it and starts the pulse timer afresh, and a raise of a kind already
pending leaves line and timer alone. A kind is pending while an item of it is. A log write makes a LOG raise when it brings the
unread count to the threshold. -/
def Obligations.RaisesAreTaken : Prop :=
  (∀ (n : NoticeSettings) (r : RouteNo) (up : Bool),
    takesRaise n (.fault r up) = true ↔
      n.faultMode = .both ∨ n.faultMode = .raise ∧ up = true ∨ n.faultMode = .clear ∧ up = false)
  ∧ (∀ n : NoticeSettings, takesRaise n .done = n.done ∧ takesRaise n .window = n.window ∧ takesRaise n .equip = n.equip
      ∧ takesRaise n .log = n.log ∧ ∀ m, takesRaise n (.mark m) = true)
  ∧ (∀ (k : Notice) (n : NoticeState),
    (takesRaise n.settings k = false → raiseNotice k n = n)
    ∧ (takesRaise n.settings k = true →
      (n.settings.lineMode = .level → raiseNotice k n = { n with pending := setItem n.pending k, asserted := true })
      ∧ (n.settings.lineMode = .pulse →
        (kindPending n.pending k = true → raiseNotice k n = { n with pending := setItem n.pending k })
        ∧ (kindPending n.pending k = false →
          raiseNotice k n
            = { n with pending := setItem n.pending k, asserted := true, pulse := some n.settings.pulseLen }))))
  ∧ (∀ p : Pending,
    setItem p .done = { p with done := true } ∧ setItem p .window = { p with window := true }
    ∧ setItem p .equip = { p with equip := true } ∧ setItem p .log = { p with log := true }
    ∧ (∀ r up, setItem p (.fault r up) = { p with faults := (setItem p (.fault r up)).faults })
    ∧ (∀ m, setItem p (.mark m) = { p with marks := (setItem p (.mark m)).marks })
    ∧ kindPending p .done = p.done ∧ kindPending p .window = p.window ∧ kindPending p .equip = p.equip
    ∧ kindPending p .log = p.log ∧ (∀ r up, kindPending p (.fault r up) = true ↔ ∃ i, i < 48 ∧ has p.faults i = true)
    ∧ (∀ m, kindPending p (.mark m) = true ↔ ∃ i, i < 4 ∧ has p.marks i = true)
    ∧ (anyPending p = true ↔ ∃ k : Notice, kindPending p k = true))
  ∧ (∀ (p : Pending) (r : RouteNo) (up : Bool) (i : Nat),
    has (setItem p (.fault r up)).faults i = (has p.faults i || decide (i = r)))
  ∧ (∀ (p : Pending) (m i : Nat), m < 4 → has (setItem p (.mark m)).marks i = (has p.marks i || decide (i = m)))
  ∧ ∀ (l : ResultLog) (c : Client), l.next < 65536 → l.ring.length ≤ 256 →
    unreadCount l (perGet l.readers c) ≤ l.ring.length → (perGet l.readers c).cursor < 65536 →
    (perGet l.readers c).threshold ≤ 255 →
      (reachesThreshold l c = true ↔ unreadCount l (perGet l.readers c) + 1 = (perGet l.readers c).threshold)

/-- SET_NOTICES (R160, R167, R173): refused whole for a value that is not in its list; accepted, it stores the parts it
carries, applies a change of line mode at once and makes the LOG raise of a carried threshold at or below the unread
count. That the settings come into force before that raise is the model's choice (log entry 12). The polarity alone
decides the electrical level of a line that is asserted or not: ACTIVE_LOW is low when asserted, ACTIVE_HIGH high (R165,
R167); after a reset each line is high, which is not asserted (R168). -/
def Obligations.SetNoticesRules : Prop :=
  ([1, 2, 3, 4].map faultModeOf = [some .off, some .raise, some .clear, some .both]
    ∧ [1, 2].map clearModeOf = [some .onRead, some .onAck] ∧ [1, 2].map lineModeOf = [some .level, some .pulse]
    ∧ [1, 2].map polarityOf = [some .activeLow, some .activeHigh])
  ∧ (∀ n : NoticeState,
    (n.settings.polarity = .activeLow → lineHigh n = !n.asserted)
    ∧ (n.settings.polarity = .activeHigh → lineHigh n = n.asserted))
  ∧ lineHigh NoticeState.reset = true
  ∧ ∀ (c : Client) (tag : Byte) (p : NoticeParts) (s : State), Ready c s →
    (NoticeRefused p → exec (.setNotices c tag p) s = .next (replied c tag 0x14 .badValue .none s))
    ∧ (¬NoticeRefused p →
      ∀ (old new : NoticeState) (reader : LogReader), old = perGet s.notices c → reader = perGet s.log.readers c →
        new.settings = carried p old.settings → new.pending = old.pending →
        (old.settings.lineMode = new.settings.lineMode → new.asserted = old.asserted ∧ new.pulse = old.pulse) →
        (old.settings.lineMode = .level → new.settings.lineMode = .pulse → new.asserted = false ∧ new.pulse = none) →
        (old.settings.lineMode = .pulse → new.settings.lineMode = .level →
          new.asserted = anyPending old.pending ∧ new.pulse = none) →
        exec (.setNotices c tag p) s = .next (replied c tag 0x14 .ok
          (.noticeSettings new.settings (p.threshold.getD reader.threshold))
          (withNotice c
            (if p.threshold.isSome = true ∧ p.threshold.getD reader.threshold ≤ unreadCount s.log reader then
              raiseNotice .log new else new)
            (withReader c { reader with threshold := p.threshold.getD reader.threshold } s))))

/-- READ_NOTICES gives what is pending and in ON_READ mode clears exactly that (R162); ACK_NOTICES clears what it names and gives
what is left (R163). A LEVEL line is then asserted exactly when something is left (R165); a running pulse is not cut, and ends at
its timer's expiry (R166). That PULSE_TIMER_EXPIRY with no pulse running is no event is the model's choice (log entry 14). -/
def Obligations.NoticesAreReadAndAcknowledged : Prop :=
  ∀ (c : Client) (tag : Byte) (s : State) (n : NoticeState), n = perGet s.notices c →
    (Ready c s →
      (n.settings.clearMode = .onAck →
        exec (.readNotices c tag) s = .next (replied c tag 0x15 .ok (.pending n.pending .onAck) s))
      ∧ (n.settings.clearMode = .onRead →
        exec (.readNotices c tag) s = .next (replied c tag 0x15 .ok (.pending n.pending .onRead)
          (withNotice c
            { n with pending := Pending.none
                     asserted := if n.settings.lineMode = .level then false else n.asserted } s)))
      ∧ ∀ (a : AckParts) (left : Pending),
        left =
          { faults := n.pending.faults &&& ~~~a.routes, done := n.pending.done && !a.done
            window := n.pending.window && !a.window, marks := n.pending.marks &&& ~~~a.marks
            equip := n.pending.equip && !a.equip, log := n.pending.log && !a.log } →
        exec (.ackNotices c tag a) s = .next (replied c tag 0x16 .ok (.pending left n.settings.clearMode)
          (withNotice c
            { n with pending := left
                     asserted := if n.settings.lineMode = .level then anyPending left else n.asserted } s)))
    ∧ (n.pulse = none → exec (.pulseTimerExpiry c) s = .next s)
    ∧ (n.pulse ≠ none → exec (.pulseTimerExpiry c) s
        = .next (withNotice c { n with asserted := false, pulse := none } s))

/-- A log write numbers and stamps its entry and overwrites the oldest of 256, moving on and flagging the clients that had not
read it (R169, R171). READ_LOG gives up to 8 entries from the client's cursor on, with its overrun flag, the count left and the
numbers of the oldest and newest entries, then advances the cursor and clears the flag (R172). -/
def Obligations.TheLogIsWrittenAndRead : Prop :=
  (∀ (l : ResultLog) (r : LogReader), l.next < 65536 → r.cursor < 65536 →
    unreadCount l r < 65536 ∧ (r.cursor + unreadCount l r) % 65536 = l.next)
  ∧ (∀ (t : Time) (b : LogBody) (l : ResultLog),
    (logAfterWrite t b l).next = (l.next + 1) % 65536
    ∧ (l.ring.length < 256 →
      (logAfterWrite t b l).ring = l.ring ++ [{ number := l.next, time := t, body := b }]
      ∧ ∀ c, perGet (logAfterWrite t b l).readers c = perGet l.readers c)
    ∧ (l.ring.length = 256 →
      (logAfterWrite t b l).ring = l.ring.drop 1 ++ [{ number := l.next, time := t, body := b }]
      ∧ ∀ c, perGet (logAfterWrite t b l).readers c =
        if (perGet l.readers c).cursor = (l.next + 65280) % 65536 then
          { perGet l.readers c with cursor := ((perGet l.readers c).cursor + 1) % 65536, overrun := true }
        else perGet l.readers c))
  ∧ ∀ (c : Client) (tag : Byte) (s : State) (r : LogReader), Ready c s → LogLaw s → r = perGet s.log.readers c →
    ∃ es : List LogEntry,
      es.length = min 8 (unreadCount s.log r)
      ∧ (∀ i, ∀ h : i < es.length, (es[i]).number = (r.cursor + i) % 65536 ∧ es[i] ∈ s.log.ring)
      ∧ exec (.readLog c tag) s = .next (replied c tag 0x17 .ok
          (.log r.overrun es (unreadCount s.log r - es.length)
            ((s.log.next + 65536 - s.log.ring.length) % 65536) ((s.log.next + 65535) % 65536))
          (withReader c
            { cursor := (r.cursor + es.length) % 65536, overrun := false, threshold := r.threshold } s))

/-! ### The device requests -/

/-- SET_DEVICE, CLEAR_EQUIPMENT and RESET (R22 to R24, R80, R182): a refused part refuses the whole request; accepted
settings replace those carried, and a changed barred range is reported to the Test Queue in the same step, which gives
the port as ThePortIsGiven says (R81, R82, R111, R116); the Equipment Record is emptied, not by SC-A or SC-B while the
engine is FAULTED, and by CR with the engine homing the switch, or waiting while a block write is in flight, or IDLE
with its hand-out where the switch stands at HOME (R1, R18, R110); RESET only arms the craft reset. The switch timeout
codes stand for 50 to 1,000 ms (Table 1-5).
The shot count of an engine that no longer runs a test is 0: the model's choice (log entry 37). -/
def Obligations.DeviceRequests : Prop :=
  (List.range 5).map timeoutMs = [50, 100, 200, 500, 1000]
  ∧ ∀ (c : Client) (tag : Byte) (s : State), Ready c s → c ≠ .ls →
    (∀ p, DeviceRefused p → exec (.setDevice c tag p) s = .next (replied c tag 0x18 .badValue .none s))
    ∧ (∀ p t, ¬DeviceRefused p →
      t = { s with device := { live := p.live.getD s.device.live, timeout := p.timeout.getD s.device.timeout
                               barred := p.barred.getD s.device.barred } } →
      (p.barred = none ∨ p.barred = some s.device.barred ∨ EngineFixed s →
        exec (.setDevice c tag p) s = .next (replied c tag 0x18 .ok .none t))
      ∧ (p.barred.getD s.device.barred ≠ s.device.barred →
        exec (.setDevice c tag p) s = .next (replied c tag 0x18 .ok .none (routeReport (isClosed s) t))))
    ∧ (s.engine.state ≠ .faulted →
      exec (.clearEquipment c tag) s = .next (replied c tag 0x1B .ok .none { s with equip := none }))
    ∧ (s.engine.state = .faulted →
      (c ≠ .cr → exec (.clearEquipment c tag) s = .next (replied c tag 0x1B .notPermitted .none s))
      ∧ (c = .cr →
        (writeInFlight s = true → exec (.clearEquipment c tag) s = .next (replied c tag 0x1B .ok .none
          { s with equip := none, engine := engineFree .recovering none s.engine }))
        ∧ (writeInFlight s = false → s.switch ≠ .standing .home →
          exec (.clearEquipment c tag) s = .next (replied c tag 0x1B .ok .none
            { s with
              equip := none, switch := .moving .home
              engine := engineFree .recovering (some (.switch (timeoutMs s.device.timeout))) s.engine }))
        ∧ (writeInFlight s = false → s.switch = .standing .home →
          ∃ t, exec (.clearEquipment c tag) s = .next (replied c tag 0x1B .ok .none (handOut t))
            ∧ (NoneEligible s → handOut t = t)
            ∧ t = { s with equip := none, engine := engineFree .idle none s.engine })))
    ∧ (c = .cr → exec (.resetRequest c tag) s = .next (replied c tag 0x1C .ok .none { s with craftArmed := true }))

/-! ### The optical path -/

/-- The arrival events (R1, R8, R18): the switch stands where it was moving to; in SWITCHING for that port the live
check starts; in RECOVERING, once the switch was commanded, HOME reached takes the engine to IDLE and the hand-out is
made (R110; ThePortIsGiven says what it takes), so that the first eligible entry in queue order, here spelled out for a
CHECK, is taken. An arrival that does not match the switch's target is no event (the model's choice, log entry 14).
The shot count of an engine that no longer runs a test is 0: the model's choice (log entry 37). -/
def Obligations.ArrivalsOfTheSwitch : Prop :=
  ∀ s : State,
    (∀ p : RouteNo, s.switch ≠ .moving (.port p) → exec (.settled p) s = .next s)
    ∧ (∀ p : RouteNo, s.switch = .moving (.port p) →
      (∀ run, s.engine.state = .switching → s.engine.running = some run → run.route = p →
        exec (.settled p) s = .next { s with
          switch := .standing (.port p), front := { s.front with checking := true }
          engine := { s.engine with state := .liveCheck, timer := some .liveCheck } })
      ∧ ((s.engine.state ≠ .switching ∨ ∀ run, s.engine.running = some run → run.route ≠ p) →
        exec (.settled p) s = .next { s with switch := .standing (.port p) }))
    ∧ (s.switch ≠ .moving .home → exec .homeReached s = .next s)
    ∧ (s.switch = .moving .home →
      (s.engine.state ≠ .recovering ∨ s.engine.timer = none →
        exec .homeReached s = .next { s with switch := .standing .home })
      ∧ (s.engine.state = .recovering → s.engine.timer ≠ none →
        exec .homeReached s = .next (handOut { s with
          switch := .standing .home, engine := engineFree .idle none s.engine })
        ∧ (NoneEligible s →
          exec .homeReached s = .next { s with switch := .standing .home, engine := engineFree .idle none s.engine })
        ∧ ∀ pre e post b acq running, s.queue.entries = pre ++ e :: post → (∀ x ∈ pre, isEligible s x = false) →
          (∀ x ∈ post, x.id ≠ e.id) → (∀ x ∈ pre, x.id ≠ e.id) →
          isEligible s e = true → e.kind = .check → s.routes[e.route].body = some b →
          acq = (s.engine.acq + 1) % 65536 →
          running = { id := e.id, route := e.route, kind := .check, cls := e.cls, settings := b.acq } →
            exec .homeReached s = .next { s with
              switch := .moving (.port e.route)
              queue := { s.queue with entries := pre ++ { e with running := some acq } :: post }
              engine := { engineFree .switching (some (.switch (timeoutMs s.device.timeout))) s.engine with
                acq := acq, running := some running } }))

/-- SWITCH_STUCK, ACQ_TIMEOUT and HOME_FAILED (R9, R12, R16, R18): the running entry finishes with its outcome and
equipment error, its reservation is returned, and the engine homes the switch, or is IDLE with the laser off and the
hand-out is made; a failed homing is an error with no route and takes the engine to FAULTED. In any other state the
timer does not run; that there is then no such event is the model's choice (log entry 14).
The shot count of an engine that no longer runs a test is 0: the model's choice (log entry 37). -/
def Obligations.TimersThatFail : Prop :=
  ∀ s : State,
    (s.engine.state ≠ .switching → exec .switchStuck s = .next s)
    ∧ (s.engine.state ≠ .firing → exec .acqTimeout s = .next s)
    ∧ (s.engine.state ≠ .recovering ∨ s.engine.timer = none → exec .homeFailed s = .next s)
    ∧ (s.engine.state = .recovering → s.engine.timer ≠ none →
      ∃ t, exec .homeFailed s = .next t
        ∧ t = { s with
            equip := some (recordAfter .homeFailed none s.clock.now s.equip)
            engine := { s.engine with state := .faulted, timer := none }
            log := t.log, notices := t.notices }
        ∧ LoggedAt s.clock.now s t [.equipment .homeFailed none]
        ∧ ∀ k, perGet t.notices k = raisesOf (logRaise s.log k ++ [.equip]) (perGet s.notices k))
    ∧ (QueueLaw s → RunLaw s → ∀ run, s.engine.running = some run →
      (s.engine.state = .switching → s.switch ≠ .standing .home →
        ∃ e ∈ s.queue.entries, e.id = run.id ∧ ∃ t, exec .switchStuck s = .next t
          ∧ t = { s with
              switch := .moving .home
              engine := engineFree .recovering (some (.switch (timeoutMs s.device.timeout))) s.engine
              equip := t.equip, records := t.records, store := t.store, queue := t.queue, log := t.log
              notices := t.notices }
          ∧ Finished run e .switchStuck (some .switchStuck)
              { id := run.id, acq := s.engine.acq, kind := run.kind, cls := run.cls, time := s.clock.now
                outcome := .switchStuck, len := run.settings.len, fields := none, judgement := none } s t
          ∧ ReservationReturned s t)
      ∧ (s.engine.state = .firing →
        ∃ e ∈ s.queue.entries, e.id = run.id ∧ ∃ t, exec .acqTimeout s = .next (handOut t)
          ∧ (NoneEligible s → handOut t = t)
          ∧ t = { s with
              front := { s.front with laser := false, checking := false }
              engine := engineFree .idle none s.engine
              equip := t.equip, records := t.records, store := t.store, queue := t.queue, log := t.log
              notices := t.notices }
          ∧ Finished run e .acqTimeout (some .acqTimeout)
              { id := run.id, acq := s.engine.acq, kind := run.kind, cls := run.cls, time := s.clock.now
                outcome := .acqTimeout, len := run.settings.len, fields := none, judgement := none } s t
          ∧ ReservationReturned s t))

/-- LIVE_CHECK_EXPIRY (R3, R10, R19, R30): the reading's level is kept with its route and acquisition; at or below the
live threshold the laser goes on and FIRING starts with a cleared accumulator, unless a laser fault stands, which
finishes the entry LASER_FAULT; above it the entry finishes LIVE_LIGHT, no equipment error being recorded, and the
hand-out is made (R16, R110). That the laser fault's finish comes in the same step is the model's reading (log entry
15); that the expiry outside LIVE_CHECK is no event is its choice (log entry 14).
The shot count of an engine that no longer runs a test is 0: the model's choice (log entry 37). -/
def Obligations.LiveCheckIsJudged : Prop :=
  ∀ (reading : Averaged) (s : State),
    (s.engine.state ≠ .liveCheck → exec (.liveCheckExpiry reading) s = .next s)
    ∧ ∀ run rec, s.engine.state = .liveCheck → s.engine.running = some run →
      rec = { level := levelOf reading.val, route := run.route, acq := s.engine.acq } →
      (levelOf reading.val ≤ s.device.live → s.front.fault = false →
        exec (.liveCheckExpiry reading) s = .next { s with
          front := { s.front with laser := true, checking := false, record := some rec }
          engine := { s.engine with
            state := .firing, timer := some .shot, shotCount := 0
            acc := List.replicate run.settings.len { sum := 0, sat := false } } })
      ∧ (QueueLaw s → RunLaw s → levelOf reading.val ≤ s.device.live → s.front.fault = true → s.shelf = none →
        ∃ e ∈ s.queue.entries, e.id = run.id ∧ ∃ t, exec (.liveCheckExpiry reading) s = .next t
          ∧ t = { s with
              front := { s.front with laser := false, checking := false, record := some rec }
              engine := engineFree .faulted none s.engine
              equip := t.equip, records := t.records, store := t.store, queue := t.queue, log := t.log
              notices := t.notices }
          ∧ Finished run e .laserFault (some .laserFault)
              { id := run.id, acq := s.engine.acq, kind := run.kind, cls := run.cls, time := s.clock.now
                outcome := .laserFault, len := run.settings.len, fields := none, judgement := none } s t
          ∧ ReservationReturned s t)
      ∧ (QueueLaw s → RunLaw s → s.device.live < levelOf reading.val →
        ∃ e ∈ s.queue.entries, e.id = run.id ∧ ∃ t, exec (.liveCheckExpiry reading) s = .next (handOut t)
          ∧ (NoneEligible s → handOut t = t)
          ∧ t = { s with
              front := { s.front with checking := false, record := some rec }
              engine := engineFree .idle none s.engine
              records := t.records, store := t.store, queue := t.queue, log := t.log, notices := t.notices }
          ∧ Finished run e .liveLight none
              { id := run.id, acq := s.engine.acq, kind := run.kind, cls := run.cls, time := s.clock.now
                outcome := .liveLight, len := run.settings.len, fields := none, judgement := none } s t
          ∧ ReservationReturned s t)

/-- SHOT_COMPLETE (R2, R11, R13, R25): a stray record changes nothing; in FIRING each sample is added to its sum, a sample of 65535
marks its position, and the shot timer restarts; the last shot turns the laser off and starts ANALYSING, which copies the judging
settings, notes the baseline of a CHECK and makes the trace buffer FILLING. A record of a wrong length is refused (the model's
choice, log entry 13). -/
def Obligations.ShotsAreGathered : Prop :=
  (∀ (acc : List AccCell) (samples : List Sample), acc.length = samples.length →
    (addShot acc samples).length = acc.length
    ∧ ∀ i (h : i < acc.length) (h' : i < samples.length) (h'' : i < (addShot acc samples).length),
      (addShot acc samples)[i] = { sum := acc[i].sum + samples[i].toNat
                                   sat := acc[i].sat || decide (samples[i].toNat = 65535) })
  ∧ ∀ (acq : Nat) (samples : List Sample) (s : State),
    (s.engine.state ≠ .firing ∨ s.engine.acq ≠ acq → exec (.shotComplete acq samples) s = .next s)
    ∧ ∀ run, s.engine.state = .firing → s.engine.acq = acq → s.engine.running = some run →
      (samples.length ≠ run.settings.len → exec (.shotComplete acq samples) s = .refused .recordLength)
      ∧ (samples.length = run.settings.len →
        (s.engine.shotCount + 1 < 2 ^ run.settings.shots →
          exec (.shotComplete acq samples) s = .next { s with engine := { s.engine with
            acc := addShot s.engine.acc samples, shotCount := s.engine.shotCount + 1, timer := some .shot } })
        ∧ ∀ b base, 2 ^ run.settings.shots ≤ s.engine.shotCount + 1 → s.routes[run.route].body = some b →
          (run.kind = .capture ∨ b.baseline = none → base = none) →
          (∀ x, run.kind = .check → b.baseline = some x →
            base = some { blocks := x.blocks, eb := x.eb, acq := x.acq }) →
          exec (.shotComplete acq samples) s = .next { s with
            front := { s.front with laser := false }
            engine := { s.engine with
              state := .analysing, acc := addShot s.engine.acc samples, shotCount := s.engine.shotCount + 1
              timer := none, analysis := some { judging := b.judging, base := base } }
            trace := .filling { acq := acq, route := run.route, kind := run.kind, settings := run.settings }
              ((addShot s.engine.acc samples).map AccCell.sat) })

/-- ANALYSIS_COMPLETE (R13, R25, R33, R42, R53 to R56, R89, R130): the trace buffer is HELD; a CHECK without a baseline
finishes NO_BASELINE and one with a baseline JUDGED, which refreshes the fault record when its condition is the adopted
one; a CAPTURE whose end is too near finishes NO_FIBRE, any other starts writing block 0. With the laser-fault marker
the engine ends FAULTED, otherwise IDLE, and after each of the finishes the hand-out is made (R16, R110). The finding of
every JUDGED CHECK, of another condition than the adopted one too, goes to the Condition Tracker after the entry has
left the queue and before the hand-out (R55, R131; FindingsAreTaken says what it does with it). That ANALYSIS_COMPLETE
outside ANALYSING is no event is the model's choice (log entry 14).
What the trace holds: at each position the level of its average over the shots and its saturation mark (R26 to R28). What the
record holds: the effective dead zone, the measured end found with the width and the floor copied at the start of the analysis,
its distance, and the number and the first index of the saturated positions (R27, R31, R32, R34, R53).
The shot count of an engine that no longer runs a test is 0: the model's choice (log entry 37). -/
def Obligations.AnalysesEnd : Prop :=
  (∀ (n : Nat) (acc : List AccCell),
    (traceCells n acc).length = acc.length
    ∧ ∀ i (h : i < acc.length) (h' : i < (traceCells n acc).length),
      (traceCells n acc)[i] = { level := levelOf (average n acc[i].sum), sat := acc[i].sat })
  ∧ (∀ cells : List TraceCell,
    (satPositions cells).Pairwise (· < ·)
    ∧ ∀ i, i ∈ satPositions cells ↔ ∃ h : i < cells.length, cells[i].sat = true)
  ∧ (∀ (a : AcqSettings) (j : Judging) (cells : List TraceCell) (dz em : Nat),
    dz = max j.dead (pulseSpan a.pulse a.spacing) →
    em = measuredEnd dz j.width j.floor (cells.map TraceCell.level) →
      analysisFields a j cells =
        { dzEff := dz, width := j.width, em := em, dEm := distance a.spacing a.index em
          satCount := (cells.filter TraceCell.sat).length, firstSat := (satPositions cells).head? })
  ∧ ∀ s : State,
    (s.engine.state ≠ .analysing → exec .analysisComplete s = .next s)
    ∧ ∀ run a cells fields trace, s.engine.state = .analysing → s.engine.running = some run →
      s.engine.analysis = some a → cells = traceCells (2 ^ run.settings.shots) s.engine.acc →
      fields = analysisFields run.settings a.judging cells →
      trace = TraceBuffer.held { acq := s.engine.acq, route := run.route, kind := run.kind, settings := run.settings }
        fields.dzEff fields.em cells →
      (QueueLaw s → RunLaw s →
        ∀ out jd, (run.kind = .check → a.base = none → out = .noBaseline ∧ jd = none) →
          (run.kind = .capture → out = .noFibre ∧ jd = none ∧ fields.em < fields.dzEff + 2 * a.judging.width) →
          (∀ base, run.kind = .check → a.base = some base → out = .judged
            ∧ jd = some (judge run.settings a.judging fields.dzEff fields.em cells
                (base.blocks.flatMap (readBlock s.store.mem)) base.eb)) →
          (∀ j, jd = some j → j.cond = s.faults[run.route].cond
            ∧ ∃ b, s.routes[run.route].body = some b ∧ b.baseline ≠ none) →
          ∃ e ∈ s.queue.entries, e.id = run.id ∧ ∃ t, exec .analysisComplete s = .next (handOut t)
            ∧ (s.engine.marker = true ∨ NoneEligible s → handOut t = t)
            ∧ t = { s with
                trace := trace
                engine := engineFree (if s.engine.marker then .faulted else .idle) none s.engine
                faults := (match jd with
                  | none => s.faults
                  | some j => s.faults.set run.route
                    { s.faults[run.route] with
                      agreeing := min 65535 (s.faults[run.route].agreeing + 1)
                      events := some { events := j.events, more := j.more }
                      excess := j.excess, latest := some s.engine.acq })
                cands := (match jd with
                  | none => s.cands
                  | some _ => s.cands.set run.route none)
                records := t.records, store := t.store, queue := t.queue, log := t.log, notices := t.notices }
            ∧ Finished run e out none
                { id := run.id, acq := s.engine.acq, kind := run.kind, cls := run.cls, time := s.clock.now
                  outcome := out, len := run.settings.len, fields := some fields, judgement := jd } s t
            ∧ ReservationReturned s t)
      ∧ (QueueLaw s → RunLaw s → ∀ base f, run.kind = .check → a.base = some base →
        f = { route := run.route, id := run.id, acq := s.engine.acq, cls := run.cls, time := s.clock.now
              judgement := judge run.settings a.judging fields.dzEff fields.em cells
                (base.blocks.flatMap (readBlock s.store.mem)) base.eb : Finding } →
          ∃ e ∈ s.queue.entries, e.id = run.id ∧ ∃ u,
            u = { s with
                trace := trace
                engine := { s.engine with acc := [], held := some { fields := fields, time := s.clock.now } }
                records := u.records, store := u.store, queue := u.queue, log := u.log, notices := u.notices }
            ∧ Finished run e .judged none
                { id := run.id, acq := s.engine.acq, kind := run.kind, cls := run.cls, time := s.clock.now
                  outcome := .judged, len := run.settings.len, fields := some fields, judgement := some f.judgement } s u
            ∧ ReservationReturned s u
            ∧ (s.engine.marker = true → exec .analysisComplete s
                = .next { takeFinding f u with engine := engineFree .faulted none s.engine })
            ∧ (s.engine.marker = false → exec .analysisComplete s
                = .next (handOut { takeFinding f u with engine := engineFree .idle none s.engine })))
      ∧ (run.kind = .capture → fields.dzEff + 2 * a.judging.width ≤ fields.em →
        exec .analysisComplete s = .next { s with
          trace := trace
          engine := { s.engine with
            state := .committing, acc := [], held := some { fields := fields, time := s.clock.now } }
          store := { s.store with resv := s.store.resv.map fun r =>
            { r with phase := .writing 0 ((cells.map TraceCell.level).take 1024) } } })

/-- BLOCK_WRITE_GOOD and BLOCK_WRITE_FAILED in COMMITTING (R14, R15, R56, R75, R88 to R92, R133): a good write leaves
its levels in its block and the next one starts; the last makes the reservation the route's block list, frees the old
blocks, sets the condition CLEAR, noticed as a clear where it was not, and finishes the entry CAPTURED (R128, R133). A
failed one puts its block into the bad set, frees the rest and finishes STORE_ERROR. After either finish the hand-out is
made (R16, R110). What the spoilt block then holds is free (the model's choice, log entry 7).
The shot count of an engine that no longer runs a test is 0: the model's choice (log entry 37). -/
def Obligations.BlockWritesInCommitting : Prop :=
  (∀ (m : BlockMem) (a b : Nat) (data : List Nat),
    readBlock (writeBlock a data m) b = if b = a then data else readBlock m b)
  ∧ (∀ labels dz em cells, traceLevels (.held labels dz em cells) = cells.map TraceCell.level)
  ∧ ∀ (s : State) (r : Reservation) (w : Nat) (data : List Nat) (run : Running) (h : HeldAnalysis) (blk : Nat),
    s.store.resv = some r → r.phase = .writing w data → r.blocks[w]? = some blk →
    s.engine.state = .committing → s.engine.running = some run → s.engine.held = some h →
      (w + 1 < r.blocks.length →
        exec .blockWriteGood s = .next { s with store := { s.store with
          mem := writeBlock blk data s.store.mem
          resv := some
            { r with phase := .writing (w + 1) (((traceLevels s.trace).drop (1024 * (w + 1))).take 1024) } } })
      ∧ (QueueLaw s → RunLaw s →
        (∀ b new, w + 1 = r.blocks.length → s.routes[run.route].body = some b →
          new = { blocks := r.blocks, eb := h.fields.em, time := h.time, acq := r.acq } →
          ∃ e ∈ s.queue.entries, e.id = run.id ∧ ∃ t, exec .blockWriteGood s = .next (handOut t)
            ∧ (s.engine.marker = true ∨ NoneEligible s → handOut t = t)
            ∧ t = { s with
                engine := engineFree (if s.engine.marker then .faulted else .idle) none s.engine
                routes := s.routes.set run.route
                  { s.routes[run.route] with
                    revision := (s.routes[run.route].revision + 1) % 65536
                    body := some { b with baseline := some new } }
                faults := s.faults.set run.route
                  { cond := .clear, time := h.time, adopting := some { id := some run.id, kind := .capture, acq := r.acq }
                    latest := some r.acq, agreeing := 0, brk := none, events := none, excess := none }
                cands := s.cands.set run.route none
                records := s.records.set run.route (some
                  { id := run.id, acq := s.engine.acq, kind := run.kind, cls := run.cls, time := h.time
                    outcome := .captured, len := run.settings.len, fields := some h.fields, judgement := none })
                store := { free := t.store.free, bad := s.store.bad, resv := none
                           mem := writeBlock blk data s.store.mem }
                queue := t.queue, log := t.log, notices := t.notices }
            ∧ (∀ k, k ∈ t.store.free ↔ (∃ x, b.baseline = some x ∧ k ∈ x.blocks) ∨ k ∈ s.store.free)
            ∧ t.queue.entries = s.queue.entries.filter (fun x => x.id != run.id)
            ∧ t.queue.counter = s.queue.counter
            ∧ (∀ k, perGet t.queue.marks k = keptMarks run.id (perGet s.queue.marks k))
            ∧ ∀ changes : List LogBody,
                changes = (if s.faults[run.route].cond = .clear then []
                  else [.faultChange run.route .clear (some (run.id, .capture)) none]) →
              LoggedAt s.clock.now s t (changes ++ [.testDone run.route run.id run.kind .captured e.reqs none])
              ∧ ∀ k, perGet t.notices k = raisesOf
                  ((if s.faults[run.route].cond = .clear then [] else logRaise s.log k ++ [.fault run.route false])
                    ++ logRaise (changes.foldl (fun l b => logAfterWrite s.clock.now b l) s.log) k
                    ++ (if has e.reqs (bitOf k) then [.done] else []) ++ markRaises run.id s k) (perGet s.notices k))
        ∧ ∃ e ∈ s.queue.entries, e.id = run.id ∧ ∃ t, exec .blockWriteFailed s = .next (handOut t)
          ∧ (s.engine.marker = true ∨ NoneEligible s → handOut t = t)
          ∧ t = { s with
              engine := engineFree (if s.engine.marker then .faulted else .idle) none s.engine
              equip := t.equip, records := t.records, queue := t.queue, log := t.log, notices := t.notices
              store := t.store, freeCount := s.freeCount + 1 }
          ∧ Finished run e .storeError (some .storeWriteFail)
              { id := run.id, acq := s.engine.acq, kind := run.kind, cls := run.cls, time := h.time
                outcome := .storeError, len := run.settings.len, fields := some h.fields, judgement := none } s t
          ∧ t.store.resv = none
          ∧ (∀ k, k ∈ t.store.free ↔ k ∈ r.blocks ∧ k ≠ blk ∨ k ∈ s.store.free)
          ∧ (∀ k, k ∈ t.store.bad ↔ k = blk ∨ k ∈ s.store.bad)
          ∧ ∀ k, k ≠ blk → readBlock t.store.mem k = readBlock s.store.mem k)

/-- A block write that a reset cut off from its capture (R24, R92, R96): good, it gives its reservation back whole; failed, its block
joins the bad set and the rest is free. Neither is followed by another write, a commit, a finish or an equipment error. The engine
that waited for it homes the switch, unless the shelf reset line still holds the card or a laser fault has come. The trace buffer
is then EMPTY (R40). That the two commands with no write in flight are no event is the model's choice (log entry 14).
The shot count of an engine that no longer runs a test is 0: the model's choice (log entry 37). -/
def Obligations.BlockWritesAfterAReset : Prop :=
  ∀ s : State,
    (writeInFlight s = true ↔ ∃ r w data, s.store.resv = some r ∧ r.phase = .writing w data)
    ∧ (writeInFlight s = false → exec .blockWriteGood s = .next s ∧ exec .blockWriteFailed s = .next s)
    ∧ ∀ (r : Reservation) (w : Nat) (data : List Nat) (blk : Nat) (engine : Engine) (switch : SwitchPos),
      s.store.resv = some r → r.phase = .writing w data → r.blocks[w]? = some blk → s.engine.state ≠ .committing →
      (s.shelf = none → s.engine.state = .recovering → s.switch ≠ .standing .home ∧ switch = .moving .home
        ∧ engine = engineFree .recovering (some (.switch (timeoutMs s.device.timeout))) s.engine) →
      (s.shelf ≠ none ∨ s.engine.state ≠ .recovering → engine = s.engine ∧ switch = s.switch) →
        (∃ t, exec .blockWriteGood s = .next t
          ∧ t = { s with engine := engine, switch := switch, store := t.store, trace := .empty }
          ∧ t.store.resv = none ∧ t.store.bad = s.store.bad ∧ t.store.mem = writeBlock blk data s.store.mem
          ∧ ∀ k, k ∈ t.store.free ↔ k ∈ r.blocks ∨ k ∈ s.store.free)
        ∧ ∃ t, exec .blockWriteFailed s = .next t
          ∧ t = { s with
              engine := engine, switch := switch, store := t.store, trace := .empty, freeCount := s.freeCount + 1 }
          ∧ t.store.resv = none ∧ (∀ k, k ∈ t.store.free ↔ k ∈ r.blocks ∧ k ≠ blk ∨ k ∈ s.store.free)
          ∧ (∀ k, k ∈ t.store.bad ↔ k = blk ∨ k ∈ s.store.bad)
          ∧ ∀ k, k ≠ blk → readBlock t.store.mem k = readBlock s.store.mem k

/-- LASER_FAULT_SIGNAL in every state (R4, R19, R24): the laser is off and the error is recorded with the running route;
SWITCHING, LIVE_CHECK and FIRING finish LASER_FAULT and the engine is FAULTED; in ANALYSING and COMMITTING the marker is
set; IDLE, RECOVERING and FAULTED end FAULTED. During the hold of a shelf reset only the laser is kept off.
LASER_FAULT_ENDS ends the fault and changes nothing else.
The shot count of an engine that no longer runs a test is 0: the model's choice (log entry 37). -/
def Obligations.LaserFaults : Prop :=
  ∀ s : State,
    exec .laserFaultEnds s = .next { s with front := { s.front with fault := false } }
    ∧ (s.shelf ≠ none →
      exec .laserFaultSignal s = .next { s with front := { s.front with laser := false, fault := true } })
    ∧ (s.shelf = none →
      (∀ run, QueueLaw s → RunLaw s → s.engine.running = some run → canStop s.engine.state = true →
        ∃ e ∈ s.queue.entries, e.id = run.id ∧ ∃ t, exec .laserFaultSignal s = .next t
          ∧ t = { s with
              front := { s.front with laser := false, checking := false, fault := true }
              engine := engineFree .faulted none s.engine
              equip := t.equip, records := t.records, store := t.store, queue := t.queue, log := t.log
              notices := t.notices }
          ∧ Finished run e .laserFault (some .laserFault)
              { id := run.id, acq := s.engine.acq, kind := run.kind, cls := run.cls, time := s.clock.now
                outcome := .laserFault, len := run.settings.len, fields := none, judgement := none } s t
          ∧ ReservationReturned s t)
      ∧ ∀ route engine,
        (s.engine.state = .analysing ∨ s.engine.state = .committing →
          route = s.engine.running.map Running.route ∧ engine = { s.engine with marker := true }) →
        (s.engine.state = .idle ∨ s.engine.state = .recovering ∨ s.engine.state = .faulted →
          route = none ∧ engine = { s.engine with state := .faulted, timer := none }) →
        canStop s.engine.state = false →
          ∃ t, exec .laserFaultSignal s = .next t
            ∧ t = { s with
                front := { s.front with laser := false, fault := true }, engine := engine
                equip := some (recordAfter .laserFault route s.clock.now s.equip)
                log := t.log, notices := t.notices }
            ∧ LoggedAt s.clock.now s t [.equipment .laserFault route]
            ∧ ∀ k, perGet t.notices k = raisesOf (logRaise s.log k ++ [.equip]) (perGet s.notices k))

/-! ### The clock and the windows -/

/-- TICK (R139, R140, R147 to R149): a STOPPED clock changes nothing; otherwise the seconds rise with all carries in one
step; at a rollover every window is judged, what opened or closed is logged in window number, noticed and reported to
the Test Queue, which gives the port as ThePortIsGiven says (R111, R115), and during the hold of a shelf reset nothing
is reported (R158). MINUTE_ROLLOVER and WINDOW_COUNT_EXPIRY are the tick that makes them, during such a hold too, and no
event otherwise (the model's reading, log entry 8). -/
def Obligations.TicksOfTheClock : Prop :=
  windowNumbers.map Fin.val = List.range 8
  ∧ ∀ s : State,
    (s.clock.running = false → exec .tick s = .next s ∧ exec .minuteRollover s = .next s
      ∧ ∀ w, exec (.windowCountExpiry w) s = .next s)
    ∧ (s.clock.running = true →
      ∀ now : Time,
        (s.clock.now.second < 59 → now = { s.clock.now with second := s.clock.now.second + 1 }) →
        (s.clock.now.second = 59 →
          (s.clock.now.minute < 59 → now = { s.clock.now with minute := s.clock.now.minute + 1, second := 0 })
          ∧ (s.clock.now.minute = 59 →
            (s.clock.now.hour < 23 → now = { s.clock.now with hour := s.clock.now.hour + 1, minute := 0, second := 0 })
            ∧ (s.clock.now.hour = 23 →
              now = { day := (s.clock.now.day + 1) % 65536, hour := 0, minute := 0, second := 0 }))) →
        s.clock.now.second ≤ 59 → s.clock.now.minute ≤ 59 → s.clock.now.hour ≤ 23 →
          (s.clock.now.second < 59 →
            exec .tick s = .next { s with clock := { now := now, running := true } } ∧ exec .minuteRollover s = .next s
            ∧ ∀ w, exec (.windowCountExpiry w) s = .next s)
          ∧ (s.clock.now.second = 59 →
            exec .minuteRollover s = exec .tick s
            ∧ (∀ w : WindowNo,
              (s.windows[w].settings.enabled = true → s.windows[w].remaining = some 1 →
                exec (.windowCountExpiry w) s = exec .tick s)
              ∧ (s.windows[w].settings.enabled = false ∨ s.windows[w].remaining ≠ some 1 →
                exec (.windowCountExpiry w) s = .next s))
            ∧ ∀ (windows : Vector Window 8) (bs : List LogBody),
              (∀ w : WindowNo, windows[w] = windowAtRollover now s.windows[w]) →
              bs = (windowNumbers.filterMap fun w =>
                if s.windows[w].remaining = none ∧ windows[w].remaining ≠ none then some (LogBody.windowOpen w)
                else if s.windows[w].remaining ≠ none ∧ windows[w].remaining = none then some (.windowClose w .expired)
                else none) →
              (s.shelf ≠ none →
                exec .tick s = .next { s with clock := { now := now, running := true }, windows := windows })
              ∧ (s.shelf = none → ∃ t u,
                  (bs = [] ∨ EngineFixed s → u = t) ∧ (bs ≠ [] → u = coverageReport t)
                  ∧ exec .tick s = .next u
                  ∧ t = { s with
                      clock := { now := now, running := true }, windows := windows, log := t.log, notices := t.notices }
                  ∧ LoggedAt now s t bs
                  ∧ ∀ k, perGet t.notices k = raisesOf
                      (logRaises now bs s.log k ++ if bs = [] then [] else [.window]) (perGet s.notices k))))

/-- R146: the opening match holds when the factor set is not empty and every factor in it matches the clock as the rollover leaves
it; a factor set with a start minute of 60 or more for MINUTE, a start hour of 24 or more for HOUR or an empty weekday set for
WEEKDAY never matches. -/
def Obligations.OpeningMatch : Prop :=
  ∀ (w : WindowSettings) (t : Time),
    (opensAt w t = true ↔
      w.factors ≠ 0 ∧ (has w.factors 0 = true → t.minute = w.minute) ∧ (has w.factors 1 = true → t.hour = w.hour)
        ∧ (has w.factors 2 = true → has w.weekdays (t.day % 7) = true))
      ∧ (t.minute ≤ 59 → t.hour ≤ 23 →
        has w.factors 0 = true ∧ 60 ≤ w.minute ∨ has w.factors 1 = true ∧ 24 ≤ w.hour
          ∨ has w.factors 2 = true ∧ w.weekdays = 0 →
        opensAt w t = false)

/-- A window at a minute rollover (R147, R148): a disabled one is not judged; a CLOSED one opens for its duration when its opening
match holds; an OPEN one counts down, and when its count runs out is extended for its duration when the match holds, else closes. A
window of duration D that matches at no later rollover is OPEN for exactly D rollovers. -/
def Obligations.WindowsAtARollover : Prop :=
  (∀ (t : Time) (w : Window),
    (windowAtRollover t w).settings = w.settings
    ∧ (w.settings.enabled = false → windowAtRollover t w = w)
    ∧ (w.settings.enabled = true →
      (w.remaining = none →
        (windowAtRollover t w).remaining = if opensAt w.settings t then some w.settings.duration else none)
      ∧ ∀ n, w.remaining = some n →
        (2 ≤ n → (windowAtRollover t w).remaining = some (n - 1))
        ∧ (n = 1 →
          (windowAtRollover t w).remaining = if opensAt w.settings t then some w.settings.duration else none)))
  ∧ ∀ (w : Window) (t : Time) (ts : List Time), w.settings.enabled = true → w.remaining = none →
      1 ≤ w.settings.duration → opensAt w.settings t = true → (∀ u ∈ ts, opensAt w.settings u = false) →
        ((ts.foldl (fun v u => windowAtRollover u v) (windowAtRollover t w)).remaining ≠ none
          ↔ ts.length < w.settings.duration)

/-! ### Trace arithmetic and judgement -/

/-- Averages are the mean times 256 rounded half up and stay in range (R26); levels never decrease, stay in 0..3610, are 0 exactly
for the averages 0 and 1, and reach 3610 exactly from 16,646,144 on (R28, R29). The measured end is the smallest index from the
effective dead zone on at which a whole width of levels stands at or below the floor, and the length of the trace when there is
none (R32). -/
def Obligations.AveragesLevelsAndEnds : Prop :=
  (∀ k sum, 4 ≤ k → k ≤ 16 → sum ≤ 65535 * 2 ^ k →
    2 * 2 ^ k * average (2 ^ k) sum ≤ 2 * (256 * sum) + 2 ^ k
    ∧ 2 * (256 * sum) + 2 ^ k < 2 * 2 ^ k * (average (2 ^ k) sum + 1)
    ∧ average (2 ^ k) sum ≤ 16776960)
  ∧ (∀ a e, 2 ^ e ≤ a → a < 2 ^ (e + 1) → a ≤ 16776960 →
      e ≤ 23 ∧ levelOf a = ((64 * e + 64 * (a - 2 ^ e) / 2 ^ e) * 150515 + 32000) / 64000)
  ∧ (∀ a b, a ≤ b → levelOf a ≤ levelOf b)
  ∧ (∀ a, a ≤ 16776960 → levelOf a ≤ 3610)
  ∧ (∀ a, levelOf a = 0 ↔ a ≤ 1)
  ∧ levelOf 2 = 151
  ∧ (∀ a, a ≤ 16776960 → (levelOf a = 3610 ↔ 16646144 ≤ a))
  ∧ ∀ (dz w f : Nat) (levels : List Nat), 1 ≤ w → dz + w ≤ levels.length →
    ∀ low : Nat → Prop, (∀ e, low e ↔ dz ≤ e ∧ e + w ≤ levels.length ∧ ∀ i, e ≤ i → i < e + w → levels.getD i 0 ≤ f) →
      ((∃ e, low e) → low (measuredEnd dz w f levels) ∧ ∀ e, low e → measuredEnd dz w f levels ≤ e)
      ∧ ((¬∃ e, low e) → measuredEnd dz w f levels = levels.length)

/-- R34: the distance of an index is the exact quotient rounded half up; D(0) is 0, D grows with the index, and the largest distance
the card can report is 13,743,835 cm. -/
def Obligations.DistanceOfAnIndex : Prop :=
  ∀ spacing n, spacing ≤ 4 → 14000 ≤ n → n ≤ 15500 →
    (∀ i, distance spacing n i = (i * spacingCm spacing * 14680 + n / 2) / n
      ∧ 2 * n * distance spacing n i ≤ 2 * (i * spacingCm spacing * 14680) + n
      ∧ 2 * (i * spacingCm spacing * 14680) + n < 2 * n * (distance spacing n i + 1))
    ∧ distance spacing n 0 = 0
    ∧ (∀ i j, i < j → distance spacing n i < distance spacing n j)
    ∧ (∀ i, i ≤ 32768 → distance spacing n i ≤ 13743835)
    ∧ distance 4 14000 32768 = 13743835

/-- Breaks and longer fibres (R45, R47): a break lies at the measured end, at its distance, exactly when that end comes more than
the end tolerance before the baseline's, and the fibre is LONGER exactly when it comes more than it after; never both. The break is
NEAR when its end lies at most a width past the dead zone, and otherwise REFLECTIVE exactly when one of the last `width` levels
before it stands at least the reflection threshold above the level before those (R46). -/
def Obligations.BreaksAndLongerFibres : Prop :=
  ∀ (a : AcqSettings) (j : Judging) (dz em : Nat) (cells : List TraceCell) (base : List Nat) (eb : Nat) (g : Judgement),
    g = judge a j dz em cells base eb →
      (em + j.tEnd < eb → ∃ k, g.brk = some { kind := k, distance := distance a.spacing a.index em })
      ∧ (eb ≤ em + j.tEnd → g.brk = none)
      ∧ (g.longer = true ↔ eb + j.tEnd < em)
      ∧ ¬(g.brk ≠ none ∧ g.longer = true)
      ∧ (1 ≤ j.width → cells.length = a.len → em ≤ a.len → ∀ (x : Break) (level : Nat → Nat), g.brk = some x →
        (∀ i, level i = (cells.getD i { level := 0, sat := false }).level) →
          (x.kind = .near ↔ em < dz + j.width + 1)
          ∧ (dz + j.width + 1 ≤ em →
            (x.kind = .reflective ↔
              ∃ i, em - j.width ≤ i ∧ i < em ∧ level (em - j.width - 1) + j.tReflect ≤ level i)
            ∧ (x.kind = .nonReflective ↔
              ∀ i, em - j.width ≤ i → i < em → level i < level (em - j.width - 1) + j.tReflect)))
      ∧ (em = a.len → eb ≤ a.len → g.brk = none)
      ∧ (em ≤ a.len → a.len ≤ eb + j.tEnd → g.longer = false)

/-- The condition of one test (R44, R48, R51, R52): BREAK before BEND before DEGRADED before CLEAR. With a compared range of at
least two widths the excess is the mean of its last differences rounded down; with a shorter one there are no events and no
excess. -/
def Obligations.ConditionOfOneTest : Prop :=
  ∀ (a : AcqSettings) (j : Judging) (dz em : Nat) (cells : List TraceCell) (base : List Nat) (eb : Nat) (g : Judgement),
    g = judge a j dz em cells base eb → 1 ≤ j.width →
    cells.length = a.len → base.length = a.len → em ≤ a.len → eb ≤ a.len →
    ∀ diff : Nat → Int,
      (∀ i, diff i = if (cells.getD i { level := 0, sat := false }).sat = true ∨ base.getD i 0 = 3610 then 0
        else (base.getD i 0 : Int) - ((cells.getD i { level := 0, sat := false }).level : Int)) →
      (g.cond = .broken ↔ g.brk ≠ none)
      ∧ (g.cond = .bend ↔ g.brk = none ∧ g.events ≠ [])
      ∧ (g.cond = .degraded ↔ g.brk = none ∧ g.events = [] ∧ ∃ x, g.excess = some x ∧ (j.tTotal : Int) ≤ x)
      ∧ (g.cond = .clear ↔ g.brk = none ∧ g.events = [] ∧ ∀ x, g.excess = some x → x < (j.tTotal : Int))
      ∧ g.cond ≠ .unknown
      ∧ (min em eb < dz + 2 * j.width → g.events = [] ∧ g.more = false ∧ g.excess = none)
      ∧ (dz + 2 * j.width ≤ min em eb → g.excess
          = some (((List.range j.width).map fun k => diff (min em eb - j.width + k)).sum / (j.width : Int)))

/-- The loss events of one test (R48 to R50): each lies where the step sum first reaches the largest value of its run of
indices at or above the bar, with its distance and its loss rounded half up; every such run gives an event unless there
are more than 16; the events stand in increasing distance; the first 16 runs, told by their first indices, give the
events kept, in their order, and MORE_EVENTS is set exactly when there is a seventeenth run. -/
def Obligations.LossEventsOfATest : Prop :=
  ∀ (a : AcqSettings) (j : Judging) (dz em : Nat) (cells : List TraceCell) (base : List Nat) (eb : Nat) (g : Judgement),
    g = judge a j dz em cells base eb → a.spacing ≤ 4 → 14000 ≤ a.index → a.index ≤ 15500 → 1 ≤ j.width → 5 ≤ j.tLoss →
    cells.length = a.len → base.length = a.len → em ≤ a.len → eb ≤ a.len →
    ∀ (diff stepSum : Nat → Int) (bar : Int) (searched run : Nat → Prop),
      (∀ i, diff i = if (cells.getD i { level := 0, sat := false }).sat = true ∨ base.getD i 0 = 3610 then 0
        else (base.getD i 0 : Int) - ((cells.getD i { level := 0, sat := false }).level : Int)) →
      (∀ i, stepSum i = ((List.range j.width).map fun k => diff (i + k)).sum
        - ((List.range j.width).map fun k => diff (i - j.width + k)).sum) →
      bar = ((j.width * j.tLoss : Nat) : Int) →
      (∀ i, searched i ↔ dz + j.width ≤ i ∧ i + j.width ≤ min em eb) → (∀ i, run i ↔ searched i ∧ bar ≤ stepSum i) →
      (∀ x ∈ g.events,
          run x.index ∧ x.distance = distance a.spacing a.index x.index
            ∧ (x.loss : Int) = (stepSum x.index + ((j.width / 2 : Nat) : Int)) / (j.width : Int)
            ∧ ∀ i, (∀ k, min i x.index ≤ k → k ≤ max i x.index → run k) →
                stepSum i ≤ stepSum x.index ∧ (i < x.index → stepSum i < stepSum x.index))
      ∧ (g.more = false → ∀ i, run i → ∃ x ∈ g.events, ∀ k, min i x.index ≤ k → k ≤ max i x.index → run k)
      ∧ g.events.Pairwise (fun x y => x.distance < y.distance)
      ∧ g.events.length ≤ 16 ∧ (g.more = true → g.events.length = 16)
      ∧ ∀ starts : List Nat, starts.Pairwise (· < ·) → (∀ i, i ∈ starts ↔ run i ∧ ¬run (i - 1)) →
        g.events.length = min 16 starts.length ∧ (g.more = true ↔ 16 < starts.length)
        ∧ ∀ n (h : n < g.events.length) (h' : n < starts.length),
            starts[n] ≤ (g.events[n]).index ∧ ∀ k, starts[n] ≤ k → k ≤ (g.events[n]).index → run k

/-- How the Condition Tracker takes a finding (R129 to R132): one for a route that is not BASELINED is discarded; an
agreeing one refreshes the fault record and clears the candidate; one of another condition is adopted when its agree
count reaches the confirm count, with a log entry and a notice that is a raise into DEGRADED, BEND or BREAK and a clear
into CLEAR; below it, the candidate advances and a confirming CHECK is asked for in the class of the finding (R132). The
Test Queue takes that as a TEST from CONFIRM (R121): it joins a WAITING CHECK of the route, upgrading it where it is
ROUTINE and the finding URGENT, or makes a new entry in the last place of its class; a closed route or a full queue
drops it. Then the port is given as after a TEST (ThePortIsGiven), which changes nothing while the engine can neither be
stopped nor take an entry, as at every finish. Nothing else changes. -/
def Obligations.FindingsAreTaken : Prop :=
  ∀ (f : Finding) (s : State),
    ((∀ b, s.routes[f.route].body = some b → b.baseline = none) → takeFinding f s = s)
    ∧ ∀ b x, s.routes[f.route].body = some b → b.baseline = some x →
      (f.judgement.cond = s.faults[f.route].cond → takeFinding f s = { s with
        faults := s.faults.set f.route
          { s.faults[f.route] with
            agreeing := min 65535 (s.faults[f.route].agreeing + 1)
            events := some { events := f.judgement.events, more := f.judgement.more }
            excess := f.judgement.excess, latest := some f.acq }
        cands := s.cands.set f.route none })
      ∧ ∀ n, f.judgement.cond ≠ s.faults[f.route].cond →
        (∀ k, s.cands[f.route] = some k → k.cond = f.judgement.cond → n = k.agree + 1) →
        ((∀ k, s.cands[f.route] = some k → k.cond ≠ f.judgement.cond) → n = 1) →
        (n = b.judging.confirm → ∃ t, takeFinding f s = t
          ∧ t = { s with
              faults := s.faults.set f.route
                { cond := f.judgement.cond, time := f.time, adopting := some { id := some f.id, kind := .check, acq := f.acq }
                  latest := some f.acq, agreeing := 0
                  brk := if f.judgement.cond = .broken then f.judgement.brk else none
                  events := some { events := f.judgement.events, more := f.judgement.more }
                  excess := f.judgement.excess }
              cands := s.cands.set f.route none, log := t.log, notices := t.notices }
          ∧ LoggedAt s.clock.now s t [.faultChange f.route f.judgement.cond (some (f.id, .check)) none]
          ∧ ∀ k, perGet t.notices k = raisesOf
              (logRaise s.log k ++ [.fault f.route (decide (f.judgement.cond ≠ .unknown ∧ f.judgement.cond ≠ .clear))])
              (perGet s.notices k))
        ∧ (n ≠ b.judging.confirm →
          ∀ v : State, v = { s with cands := s.cands.set f.route (some { cond := f.judgement.cond, agree := n }) } →
            (isClosed s f.route = true → takeFinding f s = v)
            ∧ (isClosed s f.route = false → QueueLaw s →
              ((∀ e ∈ s.queue.entries, isWaiting e = true → ¬(e.route = f.route ∧ e.kind = .check)) →
                (32 ≤ s.queue.entries.length → takeFinding f s = v)
                ∧ (s.queue.entries.length < 32 →
                  ∀ pre post, s.queue.entries = pre ++ post →
                    (f.cls = .urgent → (∀ e ∈ pre, e.cls = .urgent) ∧ ∀ e ∈ post, e.cls = .routine) →
                    (f.cls = .routine → post = []) →
                    ∃ id u, FirstFree s.queue.entries s.queue.counter id
                      ∧ u = { v with queue :=
                          { entries := pre
                              ++ { id := id, route := f.route, kind := .check, cls := f.cls, reqs := add 0 confirmBit
                                   running := none } :: post
                            counter := if id = 65535 then 1 else id + 1
                            marks := s.queue.marks } }
                      ∧ takeFinding f s = (if f.cls = .urgent then arbitrate u else handOut u)
                      ∧ (EngineFixed s → takeFinding f s = u)))
              ∧ ∀ pre e post, s.queue.entries = pre ++ e :: post → isWaiting e = true → e.route = f.route → e.kind = .check →
                (f.cls = .routine ∨ e.cls = .urgent →
                  takeFinding f s = { v with queue := { v.queue with
                    entries := pre ++ { e with reqs := add e.reqs confirmBit } :: post } })
                ∧ (f.cls = .urgent → e.cls = .routine →
                  ∀ ups rest, pre ++ post = ups ++ rest → (∀ y ∈ ups, y.cls = .urgent) → (∀ y ∈ rest, y.cls = .routine) →
                    ∃ u, u = { v with queue := { v.queue with
                        entries := ups ++ { e with reqs := add e.reqs confirmBit, cls := .urgent } :: rest } }
                      ∧ takeFinding f s = arbitrate u ∧ (EngineFixed s → takeFinding f s = u))))

end
end

