-- ==== Sys2Proof/Laws/State.lean ====
section
/-! SUPPORT. One lemma per field for each update of the state, true by `rfl`, so that no proof unfolds a record update; the
sets written as bits; the values held per client; the tables. -/

namespace Sys2Proof.Machine

/-! ### Values held per client -/

@[simp] theorem perGet_perSet_same {α : Type} (p : PerClient α) (c : Client) (a : α) : perGet (perSet p c a) c = a := by
  cases c <;> rfl

theorem perGet_perSet {α : Type} (p : PerClient α) (c d : Client) (a : α) :
    perGet (perSet p c a) d = if d = c then a else perGet p d := by
  cases c <;> cases d <;> rfl

@[simp] theorem perGet_perSet_of_ne {α : Type} (p : PerClient α) {c d : Client} (a : α) (h : d ≠ c) :
    perGet (perSet p c a) d = perGet p d := by
  rw [perGet_perSet, if_neg h]

@[simp] theorem perSet_perSet {α : Type} (p : PerClient α) (c : Client) (a b : α) :
    perSet (perSet p c a) c b = perSet p c b := by
  cases c <;> rfl

@[simp] theorem perSet_perGet {α : Type} (p : PerClient α) (c : Client) : perSet p c (perGet p c) = p := by
  cases c <;> rfl

@[simp] theorem perGet_perGen {α : Type} (f : Client → α) (c : Client) : perGet (perGen f) c = f c := by
  cases c <;> rfl

@[simp] theorem perGet_const {α : Type} (a : α) (c : Client) : perGet (PerClient.const a) c = a := by
  cases c <;> rfl

/-! ### Sets and tables -/

@[simp] theorem has_zero {n : Nat} (i : Nat) : has (0#n) i = false := by
  simp [has]

theorem has_add {n : Nat} (s : BitVec n) (i j : Nat) (h : i < n) : has (add s i) j = (has s j || decide (i = j)) := by
  simp only [has, add, BitVec.getLsbD_or, BitVec.getLsbD_twoPow]
  by_cases hij : i = j
  · subst hij; simp [h]
  · simp [hij]

theorem has_del {n : Nat} (s : BitVec n) (i j : Nat) : has (del s i) j = (has s j && !decide (i = j)) := by
  simp only [has, del, BitVec.getLsbD_and, BitVec.getLsbD_not, BitVec.getLsbD_twoPow]
  by_cases hj : j < n
  · by_cases hij : i = j
    · subst hij; simp [hj]
    · simp [hij, hj]
  · simp [hj, BitVec.getLsbD_of_ge s j (Nat.le_of_not_lt hj)]

theorem add_ne_zero {n : Nat} (s : BitVec n) (i : Nat) (h : i < n) : add s i ≠ 0 := by
  intro h0
  have := has_add s i i h
  rw [h0] at this
  simp at this

@[simp] theorem mapTable_getElem {α β : Type} {n : Nat} (f : α → β) (v : Vector α n) (i : Nat) (h : i < n) :
    (mapTable f v)[i] = f v[i] := by
  simp [mapTable]

theorem mapTable_getFin {α β : Type} {n : Nat} (f : α → β) (v : Vector α n) (i : Fin n) :
    (mapTable f v)[i] = f v[i] := by
  simp [mapTable]

theorem getFin_set {α : Type} {n : Nat} (v : Vector α n) (i j : Fin n) (a : α) :
    (v.set i a)[j] = if i = j then a else v[j] := by
  simp [Vector.getElem_set, Fin.ext_iff]

/-! ### The updates, field by field -/

@[simp] theorem setRoute_switch (r : RouteNo) (e : RouteEntry) (s : State) : (setRoute r e s).switch = s.switch := rfl
@[simp] theorem setRoute_front (r : RouteNo) (e : RouteEntry) (s : State) : (setRoute r e s).front = s.front := rfl
@[simp] theorem setRoute_engine (r : RouteNo) (e : RouteEntry) (s : State) : (setRoute r e s).engine = s.engine := rfl
@[simp] theorem setRoute_equip (r : RouteNo) (e : RouteEntry) (s : State) : (setRoute r e s).equip = s.equip := rfl
@[simp] theorem setRoute_device (r : RouteNo) (e : RouteEntry) (s : State) : (setRoute r e s).device = s.device := rfl
@[simp] theorem setRoute_trace (r : RouteNo) (e : RouteEntry) (s : State) : (setRoute r e s).trace = s.trace := rfl
@[simp] theorem setRoute_records (r : RouteNo) (e : RouteEntry) (s : State) : (setRoute r e s).records = s.records := rfl
@[simp] theorem setRoute_routes (r : RouteNo) (e : RouteEntry) (s : State) : (setRoute r e s).routes = s.routes.set r e := rfl
@[simp] theorem setRoute_store (r : RouteNo) (e : RouteEntry) (s : State) : (setRoute r e s).store = s.store := rfl
@[simp] theorem setRoute_queue (r : RouteNo) (e : RouteEntry) (s : State) : (setRoute r e s).queue = s.queue := rfl
@[simp] theorem setRoute_faults (r : RouteNo) (e : RouteEntry) (s : State) : (setRoute r e s).faults = s.faults := rfl
@[simp] theorem setRoute_cands (r : RouteNo) (e : RouteEntry) (s : State) : (setRoute r e s).cands = s.cands := rfl
@[simp] theorem setRoute_clock (r : RouteNo) (e : RouteEntry) (s : State) : (setRoute r e s).clock = s.clock := rfl
@[simp] theorem setRoute_windows (r : RouteNo) (e : RouteEntry) (s : State) : (setRoute r e s).windows = s.windows := rfl
@[simp] theorem setRoute_notices (r : RouteNo) (e : RouteEntry) (s : State) : (setRoute r e s).notices = s.notices := rfl
@[simp] theorem setRoute_log (r : RouteNo) (e : RouteEntry) (s : State) : (setRoute r e s).log = s.log := rfl
@[simp] theorem setRoute_links (r : RouteNo) (e : RouteEntry) (s : State) : (setRoute r e s).links = s.links := rfl
@[simp] theorem setRoute_shelf (r : RouteNo) (e : RouteEntry) (s : State) : (setRoute r e s).shelf = s.shelf := rfl
@[simp] theorem setRoute_craftArmed (r : RouteNo) (e : RouteEntry) (s : State) : (setRoute r e s).craftArmed = s.craftArmed := rfl
@[simp] theorem setRoute_freeCount (r : RouteNo) (e : RouteEntry) (s : State) : (setRoute r e s).freeCount = s.freeCount := rfl
@[simp] theorem setRoute_pending (r : RouteNo) (e : RouteEntry) (s : State) : (setRoute r e s).pending = s.pending := rfl

@[simp] theorem setRecord_switch (r : RouteNo) (t : Option TestRecord) (s : State) : (setRecord r t s).switch = s.switch := rfl
@[simp] theorem setRecord_front (r : RouteNo) (t : Option TestRecord) (s : State) : (setRecord r t s).front = s.front := rfl
@[simp] theorem setRecord_engine (r : RouteNo) (t : Option TestRecord) (s : State) : (setRecord r t s).engine = s.engine := rfl
@[simp] theorem setRecord_equip (r : RouteNo) (t : Option TestRecord) (s : State) : (setRecord r t s).equip = s.equip := rfl
@[simp] theorem setRecord_device (r : RouteNo) (t : Option TestRecord) (s : State) : (setRecord r t s).device = s.device := rfl
@[simp] theorem setRecord_trace (r : RouteNo) (t : Option TestRecord) (s : State) : (setRecord r t s).trace = s.trace := rfl
@[simp] theorem setRecord_records (r : RouteNo) (t : Option TestRecord) (s : State) : (setRecord r t s).records = s.records.set r t := rfl
@[simp] theorem setRecord_routes (r : RouteNo) (t : Option TestRecord) (s : State) : (setRecord r t s).routes = s.routes := rfl
@[simp] theorem setRecord_store (r : RouteNo) (t : Option TestRecord) (s : State) : (setRecord r t s).store = s.store := rfl
@[simp] theorem setRecord_queue (r : RouteNo) (t : Option TestRecord) (s : State) : (setRecord r t s).queue = s.queue := rfl
@[simp] theorem setRecord_faults (r : RouteNo) (t : Option TestRecord) (s : State) : (setRecord r t s).faults = s.faults := rfl
@[simp] theorem setRecord_cands (r : RouteNo) (t : Option TestRecord) (s : State) : (setRecord r t s).cands = s.cands := rfl
@[simp] theorem setRecord_clock (r : RouteNo) (t : Option TestRecord) (s : State) : (setRecord r t s).clock = s.clock := rfl
@[simp] theorem setRecord_windows (r : RouteNo) (t : Option TestRecord) (s : State) : (setRecord r t s).windows = s.windows := rfl
@[simp] theorem setRecord_notices (r : RouteNo) (t : Option TestRecord) (s : State) : (setRecord r t s).notices = s.notices := rfl
@[simp] theorem setRecord_log (r : RouteNo) (t : Option TestRecord) (s : State) : (setRecord r t s).log = s.log := rfl
@[simp] theorem setRecord_links (r : RouteNo) (t : Option TestRecord) (s : State) : (setRecord r t s).links = s.links := rfl
@[simp] theorem setRecord_shelf (r : RouteNo) (t : Option TestRecord) (s : State) : (setRecord r t s).shelf = s.shelf := rfl
@[simp] theorem setRecord_craftArmed (r : RouteNo) (t : Option TestRecord) (s : State) : (setRecord r t s).craftArmed = s.craftArmed := rfl
@[simp] theorem setRecord_freeCount (r : RouteNo) (t : Option TestRecord) (s : State) : (setRecord r t s).freeCount = s.freeCount := rfl
@[simp] theorem setRecord_pending (r : RouteNo) (t : Option TestRecord) (s : State) : (setRecord r t s).pending = s.pending := rfl

@[simp] theorem setFault_switch (r : RouteNo) (f : FaultRecord) (s : State) : (setFault r f s).switch = s.switch := rfl
@[simp] theorem setFault_front (r : RouteNo) (f : FaultRecord) (s : State) : (setFault r f s).front = s.front := rfl
@[simp] theorem setFault_engine (r : RouteNo) (f : FaultRecord) (s : State) : (setFault r f s).engine = s.engine := rfl
@[simp] theorem setFault_equip (r : RouteNo) (f : FaultRecord) (s : State) : (setFault r f s).equip = s.equip := rfl
@[simp] theorem setFault_device (r : RouteNo) (f : FaultRecord) (s : State) : (setFault r f s).device = s.device := rfl
@[simp] theorem setFault_trace (r : RouteNo) (f : FaultRecord) (s : State) : (setFault r f s).trace = s.trace := rfl
@[simp] theorem setFault_records (r : RouteNo) (f : FaultRecord) (s : State) : (setFault r f s).records = s.records := rfl
@[simp] theorem setFault_routes (r : RouteNo) (f : FaultRecord) (s : State) : (setFault r f s).routes = s.routes := rfl
@[simp] theorem setFault_store (r : RouteNo) (f : FaultRecord) (s : State) : (setFault r f s).store = s.store := rfl
@[simp] theorem setFault_queue (r : RouteNo) (f : FaultRecord) (s : State) : (setFault r f s).queue = s.queue := rfl
@[simp] theorem setFault_faults (r : RouteNo) (f : FaultRecord) (s : State) : (setFault r f s).faults = s.faults.set r f := rfl
@[simp] theorem setFault_cands (r : RouteNo) (f : FaultRecord) (s : State) : (setFault r f s).cands = s.cands := rfl
@[simp] theorem setFault_clock (r : RouteNo) (f : FaultRecord) (s : State) : (setFault r f s).clock = s.clock := rfl
@[simp] theorem setFault_windows (r : RouteNo) (f : FaultRecord) (s : State) : (setFault r f s).windows = s.windows := rfl
@[simp] theorem setFault_notices (r : RouteNo) (f : FaultRecord) (s : State) : (setFault r f s).notices = s.notices := rfl
@[simp] theorem setFault_log (r : RouteNo) (f : FaultRecord) (s : State) : (setFault r f s).log = s.log := rfl
@[simp] theorem setFault_links (r : RouteNo) (f : FaultRecord) (s : State) : (setFault r f s).links = s.links := rfl
@[simp] theorem setFault_shelf (r : RouteNo) (f : FaultRecord) (s : State) : (setFault r f s).shelf = s.shelf := rfl
@[simp] theorem setFault_craftArmed (r : RouteNo) (f : FaultRecord) (s : State) : (setFault r f s).craftArmed = s.craftArmed := rfl
@[simp] theorem setFault_freeCount (r : RouteNo) (f : FaultRecord) (s : State) : (setFault r f s).freeCount = s.freeCount := rfl
@[simp] theorem setFault_pending (r : RouteNo) (f : FaultRecord) (s : State) : (setFault r f s).pending = s.pending := rfl

@[simp] theorem setCand_switch (r : RouteNo) (k : Option Candidate) (s : State) : (setCand r k s).switch = s.switch := rfl
@[simp] theorem setCand_front (r : RouteNo) (k : Option Candidate) (s : State) : (setCand r k s).front = s.front := rfl
@[simp] theorem setCand_engine (r : RouteNo) (k : Option Candidate) (s : State) : (setCand r k s).engine = s.engine := rfl
@[simp] theorem setCand_equip (r : RouteNo) (k : Option Candidate) (s : State) : (setCand r k s).equip = s.equip := rfl
@[simp] theorem setCand_device (r : RouteNo) (k : Option Candidate) (s : State) : (setCand r k s).device = s.device := rfl
@[simp] theorem setCand_trace (r : RouteNo) (k : Option Candidate) (s : State) : (setCand r k s).trace = s.trace := rfl
@[simp] theorem setCand_records (r : RouteNo) (k : Option Candidate) (s : State) : (setCand r k s).records = s.records := rfl
@[simp] theorem setCand_routes (r : RouteNo) (k : Option Candidate) (s : State) : (setCand r k s).routes = s.routes := rfl
@[simp] theorem setCand_store (r : RouteNo) (k : Option Candidate) (s : State) : (setCand r k s).store = s.store := rfl
@[simp] theorem setCand_queue (r : RouteNo) (k : Option Candidate) (s : State) : (setCand r k s).queue = s.queue := rfl
@[simp] theorem setCand_faults (r : RouteNo) (k : Option Candidate) (s : State) : (setCand r k s).faults = s.faults := rfl
@[simp] theorem setCand_cands (r : RouteNo) (k : Option Candidate) (s : State) : (setCand r k s).cands = s.cands.set r k := rfl
@[simp] theorem setCand_clock (r : RouteNo) (k : Option Candidate) (s : State) : (setCand r k s).clock = s.clock := rfl
@[simp] theorem setCand_windows (r : RouteNo) (k : Option Candidate) (s : State) : (setCand r k s).windows = s.windows := rfl
@[simp] theorem setCand_notices (r : RouteNo) (k : Option Candidate) (s : State) : (setCand r k s).notices = s.notices := rfl
@[simp] theorem setCand_log (r : RouteNo) (k : Option Candidate) (s : State) : (setCand r k s).log = s.log := rfl
@[simp] theorem setCand_links (r : RouteNo) (k : Option Candidate) (s : State) : (setCand r k s).links = s.links := rfl
@[simp] theorem setCand_shelf (r : RouteNo) (k : Option Candidate) (s : State) : (setCand r k s).shelf = s.shelf := rfl
@[simp] theorem setCand_craftArmed (r : RouteNo) (k : Option Candidate) (s : State) : (setCand r k s).craftArmed = s.craftArmed := rfl
@[simp] theorem setCand_freeCount (r : RouteNo) (k : Option Candidate) (s : State) : (setCand r k s).freeCount = s.freeCount := rfl
@[simp] theorem setCand_pending (r : RouteNo) (k : Option Candidate) (s : State) : (setCand r k s).pending = s.pending := rfl

@[simp] theorem setEntries_switch (es : List Entry) (s : State) : (setEntries es s).switch = s.switch := rfl
@[simp] theorem setEntries_front (es : List Entry) (s : State) : (setEntries es s).front = s.front := rfl
@[simp] theorem setEntries_engine (es : List Entry) (s : State) : (setEntries es s).engine = s.engine := rfl
@[simp] theorem setEntries_equip (es : List Entry) (s : State) : (setEntries es s).equip = s.equip := rfl
@[simp] theorem setEntries_device (es : List Entry) (s : State) : (setEntries es s).device = s.device := rfl
@[simp] theorem setEntries_trace (es : List Entry) (s : State) : (setEntries es s).trace = s.trace := rfl
@[simp] theorem setEntries_records (es : List Entry) (s : State) : (setEntries es s).records = s.records := rfl
@[simp] theorem setEntries_routes (es : List Entry) (s : State) : (setEntries es s).routes = s.routes := rfl
@[simp] theorem setEntries_store (es : List Entry) (s : State) : (setEntries es s).store = s.store := rfl
@[simp] theorem setEntries_queue (es : List Entry) (s : State) : (setEntries es s).queue = { s.queue with entries := es } := rfl
@[simp] theorem setEntries_faults (es : List Entry) (s : State) : (setEntries es s).faults = s.faults := rfl
@[simp] theorem setEntries_cands (es : List Entry) (s : State) : (setEntries es s).cands = s.cands := rfl
@[simp] theorem setEntries_clock (es : List Entry) (s : State) : (setEntries es s).clock = s.clock := rfl
@[simp] theorem setEntries_windows (es : List Entry) (s : State) : (setEntries es s).windows = s.windows := rfl
@[simp] theorem setEntries_notices (es : List Entry) (s : State) : (setEntries es s).notices = s.notices := rfl
@[simp] theorem setEntries_log (es : List Entry) (s : State) : (setEntries es s).log = s.log := rfl
@[simp] theorem setEntries_links (es : List Entry) (s : State) : (setEntries es s).links = s.links := rfl
@[simp] theorem setEntries_shelf (es : List Entry) (s : State) : (setEntries es s).shelf = s.shelf := rfl
@[simp] theorem setEntries_craftArmed (es : List Entry) (s : State) : (setEntries es s).craftArmed = s.craftArmed := rfl
@[simp] theorem setEntries_freeCount (es : List Entry) (s : State) : (setEntries es s).freeCount = s.freeCount := rfl
@[simp] theorem setEntries_pending (es : List Entry) (s : State) : (setEntries es s).pending = s.pending := rfl

@[simp] theorem setLink_switch (c : Client) (l : Link) (s : State) : (setLink c l s).switch = s.switch := rfl
@[simp] theorem setLink_front (c : Client) (l : Link) (s : State) : (setLink c l s).front = s.front := rfl
@[simp] theorem setLink_engine (c : Client) (l : Link) (s : State) : (setLink c l s).engine = s.engine := rfl
@[simp] theorem setLink_equip (c : Client) (l : Link) (s : State) : (setLink c l s).equip = s.equip := rfl
@[simp] theorem setLink_device (c : Client) (l : Link) (s : State) : (setLink c l s).device = s.device := rfl
@[simp] theorem setLink_trace (c : Client) (l : Link) (s : State) : (setLink c l s).trace = s.trace := rfl
@[simp] theorem setLink_records (c : Client) (l : Link) (s : State) : (setLink c l s).records = s.records := rfl
@[simp] theorem setLink_routes (c : Client) (l : Link) (s : State) : (setLink c l s).routes = s.routes := rfl
@[simp] theorem setLink_store (c : Client) (l : Link) (s : State) : (setLink c l s).store = s.store := rfl
@[simp] theorem setLink_queue (c : Client) (l : Link) (s : State) : (setLink c l s).queue = s.queue := rfl
@[simp] theorem setLink_faults (c : Client) (l : Link) (s : State) : (setLink c l s).faults = s.faults := rfl
@[simp] theorem setLink_cands (c : Client) (l : Link) (s : State) : (setLink c l s).cands = s.cands := rfl
@[simp] theorem setLink_clock (c : Client) (l : Link) (s : State) : (setLink c l s).clock = s.clock := rfl
@[simp] theorem setLink_windows (c : Client) (l : Link) (s : State) : (setLink c l s).windows = s.windows := rfl
@[simp] theorem setLink_notices (c : Client) (l : Link) (s : State) : (setLink c l s).notices = s.notices := rfl
@[simp] theorem setLink_log (c : Client) (l : Link) (s : State) : (setLink c l s).log = s.log := rfl
@[simp] theorem setLink_links (c : Client) (l : Link) (s : State) : (setLink c l s).links = perSet s.links c l := rfl
@[simp] theorem setLink_shelf (c : Client) (l : Link) (s : State) : (setLink c l s).shelf = s.shelf := rfl
@[simp] theorem setLink_craftArmed (c : Client) (l : Link) (s : State) : (setLink c l s).craftArmed = s.craftArmed := rfl
@[simp] theorem setLink_freeCount (c : Client) (l : Link) (s : State) : (setLink c l s).freeCount = s.freeCount := rfl
@[simp] theorem setLink_pending (c : Client) (l : Link) (s : State) : (setLink c l s).pending = s.pending := rfl

@[simp] theorem setNotice_switch (c : Client) (n : NoticeState) (s : State) : (setNotice c n s).switch = s.switch := rfl
@[simp] theorem setNotice_front (c : Client) (n : NoticeState) (s : State) : (setNotice c n s).front = s.front := rfl
@[simp] theorem setNotice_engine (c : Client) (n : NoticeState) (s : State) : (setNotice c n s).engine = s.engine := rfl
@[simp] theorem setNotice_equip (c : Client) (n : NoticeState) (s : State) : (setNotice c n s).equip = s.equip := rfl
@[simp] theorem setNotice_device (c : Client) (n : NoticeState) (s : State) : (setNotice c n s).device = s.device := rfl
@[simp] theorem setNotice_trace (c : Client) (n : NoticeState) (s : State) : (setNotice c n s).trace = s.trace := rfl
@[simp] theorem setNotice_records (c : Client) (n : NoticeState) (s : State) : (setNotice c n s).records = s.records := rfl
@[simp] theorem setNotice_routes (c : Client) (n : NoticeState) (s : State) : (setNotice c n s).routes = s.routes := rfl
@[simp] theorem setNotice_store (c : Client) (n : NoticeState) (s : State) : (setNotice c n s).store = s.store := rfl
@[simp] theorem setNotice_queue (c : Client) (n : NoticeState) (s : State) : (setNotice c n s).queue = s.queue := rfl
@[simp] theorem setNotice_faults (c : Client) (n : NoticeState) (s : State) : (setNotice c n s).faults = s.faults := rfl
@[simp] theorem setNotice_cands (c : Client) (n : NoticeState) (s : State) : (setNotice c n s).cands = s.cands := rfl
@[simp] theorem setNotice_clock (c : Client) (n : NoticeState) (s : State) : (setNotice c n s).clock = s.clock := rfl
@[simp] theorem setNotice_windows (c : Client) (n : NoticeState) (s : State) : (setNotice c n s).windows = s.windows := rfl
@[simp] theorem setNotice_notices (c : Client) (n : NoticeState) (s : State) : (setNotice c n s).notices = perSet s.notices c n := rfl
@[simp] theorem setNotice_log (c : Client) (n : NoticeState) (s : State) : (setNotice c n s).log = s.log := rfl
@[simp] theorem setNotice_links (c : Client) (n : NoticeState) (s : State) : (setNotice c n s).links = s.links := rfl
@[simp] theorem setNotice_shelf (c : Client) (n : NoticeState) (s : State) : (setNotice c n s).shelf = s.shelf := rfl
@[simp] theorem setNotice_craftArmed (c : Client) (n : NoticeState) (s : State) : (setNotice c n s).craftArmed = s.craftArmed := rfl
@[simp] theorem setNotice_freeCount (c : Client) (n : NoticeState) (s : State) : (setNotice c n s).freeCount = s.freeCount := rfl
@[simp] theorem setNotice_pending (c : Client) (n : NoticeState) (s : State) : (setNotice c n s).pending = s.pending := rfl

@[simp] theorem setReader_switch (c : Client) (r : LogReader) (s : State) : (setReader c r s).switch = s.switch := rfl
@[simp] theorem setReader_front (c : Client) (r : LogReader) (s : State) : (setReader c r s).front = s.front := rfl
@[simp] theorem setReader_engine (c : Client) (r : LogReader) (s : State) : (setReader c r s).engine = s.engine := rfl
@[simp] theorem setReader_equip (c : Client) (r : LogReader) (s : State) : (setReader c r s).equip = s.equip := rfl
@[simp] theorem setReader_device (c : Client) (r : LogReader) (s : State) : (setReader c r s).device = s.device := rfl
@[simp] theorem setReader_trace (c : Client) (r : LogReader) (s : State) : (setReader c r s).trace = s.trace := rfl
@[simp] theorem setReader_records (c : Client) (r : LogReader) (s : State) : (setReader c r s).records = s.records := rfl
@[simp] theorem setReader_routes (c : Client) (r : LogReader) (s : State) : (setReader c r s).routes = s.routes := rfl
@[simp] theorem setReader_store (c : Client) (r : LogReader) (s : State) : (setReader c r s).store = s.store := rfl
@[simp] theorem setReader_queue (c : Client) (r : LogReader) (s : State) : (setReader c r s).queue = s.queue := rfl
@[simp] theorem setReader_faults (c : Client) (r : LogReader) (s : State) : (setReader c r s).faults = s.faults := rfl
@[simp] theorem setReader_cands (c : Client) (r : LogReader) (s : State) : (setReader c r s).cands = s.cands := rfl
@[simp] theorem setReader_clock (c : Client) (r : LogReader) (s : State) : (setReader c r s).clock = s.clock := rfl
@[simp] theorem setReader_windows (c : Client) (r : LogReader) (s : State) : (setReader c r s).windows = s.windows := rfl
@[simp] theorem setReader_notices (c : Client) (r : LogReader) (s : State) : (setReader c r s).notices = s.notices := rfl
@[simp] theorem setReader_log (c : Client) (r : LogReader) (s : State) : (setReader c r s).log = { s.log with readers := perSet s.log.readers c r } := rfl
@[simp] theorem setReader_links (c : Client) (r : LogReader) (s : State) : (setReader c r s).links = s.links := rfl
@[simp] theorem setReader_shelf (c : Client) (r : LogReader) (s : State) : (setReader c r s).shelf = s.shelf := rfl
@[simp] theorem setReader_craftArmed (c : Client) (r : LogReader) (s : State) : (setReader c r s).craftArmed = s.craftArmed := rfl
@[simp] theorem setReader_freeCount (c : Client) (r : LogReader) (s : State) : (setReader c r s).freeCount = s.freeCount := rfl
@[simp] theorem setReader_pending (c : Client) (r : LogReader) (s : State) : (setReader c r s).pending = s.pending := rfl

@[simp] theorem raiseTo_switch (p : Client → Bool) (k : Notice) (s : State) : (raiseTo p k s).switch = s.switch := rfl
@[simp] theorem raiseTo_front (p : Client → Bool) (k : Notice) (s : State) : (raiseTo p k s).front = s.front := rfl
@[simp] theorem raiseTo_engine (p : Client → Bool) (k : Notice) (s : State) : (raiseTo p k s).engine = s.engine := rfl
@[simp] theorem raiseTo_equip (p : Client → Bool) (k : Notice) (s : State) : (raiseTo p k s).equip = s.equip := rfl
@[simp] theorem raiseTo_device (p : Client → Bool) (k : Notice) (s : State) : (raiseTo p k s).device = s.device := rfl
@[simp] theorem raiseTo_trace (p : Client → Bool) (k : Notice) (s : State) : (raiseTo p k s).trace = s.trace := rfl
@[simp] theorem raiseTo_records (p : Client → Bool) (k : Notice) (s : State) : (raiseTo p k s).records = s.records := rfl
@[simp] theorem raiseTo_routes (p : Client → Bool) (k : Notice) (s : State) : (raiseTo p k s).routes = s.routes := rfl
@[simp] theorem raiseTo_store (p : Client → Bool) (k : Notice) (s : State) : (raiseTo p k s).store = s.store := rfl
@[simp] theorem raiseTo_queue (p : Client → Bool) (k : Notice) (s : State) : (raiseTo p k s).queue = s.queue := rfl
@[simp] theorem raiseTo_faults (p : Client → Bool) (k : Notice) (s : State) : (raiseTo p k s).faults = s.faults := rfl
@[simp] theorem raiseTo_cands (p : Client → Bool) (k : Notice) (s : State) : (raiseTo p k s).cands = s.cands := rfl
@[simp] theorem raiseTo_clock (p : Client → Bool) (k : Notice) (s : State) : (raiseTo p k s).clock = s.clock := rfl
@[simp] theorem raiseTo_windows (p : Client → Bool) (k : Notice) (s : State) : (raiseTo p k s).windows = s.windows := rfl
@[simp] theorem raiseTo_notices (p : Client → Bool) (k : Notice) (s : State) : (raiseTo p k s).notices = perGen fun c => if p c then raiseNotice k (perGet s.notices c) else perGet s.notices c := rfl
@[simp] theorem raiseTo_log (p : Client → Bool) (k : Notice) (s : State) : (raiseTo p k s).log = s.log := rfl
@[simp] theorem raiseTo_links (p : Client → Bool) (k : Notice) (s : State) : (raiseTo p k s).links = s.links := rfl
@[simp] theorem raiseTo_shelf (p : Client → Bool) (k : Notice) (s : State) : (raiseTo p k s).shelf = s.shelf := rfl
@[simp] theorem raiseTo_craftArmed (p : Client → Bool) (k : Notice) (s : State) : (raiseTo p k s).craftArmed = s.craftArmed := rfl
@[simp] theorem raiseTo_freeCount (p : Client → Bool) (k : Notice) (s : State) : (raiseTo p k s).freeCount = s.freeCount := rfl
@[simp] theorem raiseTo_pending (p : Client → Bool) (k : Notice) (s : State) : (raiseTo p k s).pending = s.pending := rfl

@[simp] theorem raiseAll_switch (k : Notice) (s : State) : (raiseAll k s).switch = s.switch := rfl
@[simp] theorem raiseAll_front (k : Notice) (s : State) : (raiseAll k s).front = s.front := rfl
@[simp] theorem raiseAll_engine (k : Notice) (s : State) : (raiseAll k s).engine = s.engine := rfl
@[simp] theorem raiseAll_equip (k : Notice) (s : State) : (raiseAll k s).equip = s.equip := rfl
@[simp] theorem raiseAll_device (k : Notice) (s : State) : (raiseAll k s).device = s.device := rfl
@[simp] theorem raiseAll_trace (k : Notice) (s : State) : (raiseAll k s).trace = s.trace := rfl
@[simp] theorem raiseAll_records (k : Notice) (s : State) : (raiseAll k s).records = s.records := rfl
@[simp] theorem raiseAll_routes (k : Notice) (s : State) : (raiseAll k s).routes = s.routes := rfl
@[simp] theorem raiseAll_store (k : Notice) (s : State) : (raiseAll k s).store = s.store := rfl
@[simp] theorem raiseAll_queue (k : Notice) (s : State) : (raiseAll k s).queue = s.queue := rfl
@[simp] theorem raiseAll_faults (k : Notice) (s : State) : (raiseAll k s).faults = s.faults := rfl
@[simp] theorem raiseAll_cands (k : Notice) (s : State) : (raiseAll k s).cands = s.cands := rfl
@[simp] theorem raiseAll_clock (k : Notice) (s : State) : (raiseAll k s).clock = s.clock := rfl
@[simp] theorem raiseAll_windows (k : Notice) (s : State) : (raiseAll k s).windows = s.windows := rfl
@[simp] theorem raiseAll_notices (k : Notice) (s : State) : (raiseAll k s).notices = perGen fun c => raiseNotice k (perGet s.notices c) := rfl
@[simp] theorem raiseAll_log (k : Notice) (s : State) : (raiseAll k s).log = s.log := rfl
@[simp] theorem raiseAll_links (k : Notice) (s : State) : (raiseAll k s).links = s.links := rfl
@[simp] theorem raiseAll_shelf (k : Notice) (s : State) : (raiseAll k s).shelf = s.shelf := rfl
@[simp] theorem raiseAll_craftArmed (k : Notice) (s : State) : (raiseAll k s).craftArmed = s.craftArmed := rfl
@[simp] theorem raiseAll_freeCount (k : Notice) (s : State) : (raiseAll k s).freeCount = s.freeCount := rfl
@[simp] theorem raiseAll_pending (k : Notice) (s : State) : (raiseAll k s).pending = s.pending := rfl

@[simp] theorem freeBlocks_switch (bs : List Nat) (s : State) : (freeBlocks bs s).switch = s.switch := rfl
@[simp] theorem freeBlocks_front (bs : List Nat) (s : State) : (freeBlocks bs s).front = s.front := rfl
@[simp] theorem freeBlocks_engine (bs : List Nat) (s : State) : (freeBlocks bs s).engine = s.engine := rfl
@[simp] theorem freeBlocks_equip (bs : List Nat) (s : State) : (freeBlocks bs s).equip = s.equip := rfl
@[simp] theorem freeBlocks_device (bs : List Nat) (s : State) : (freeBlocks bs s).device = s.device := rfl
@[simp] theorem freeBlocks_trace (bs : List Nat) (s : State) : (freeBlocks bs s).trace = s.trace := rfl
@[simp] theorem freeBlocks_records (bs : List Nat) (s : State) : (freeBlocks bs s).records = s.records := rfl
@[simp] theorem freeBlocks_routes (bs : List Nat) (s : State) : (freeBlocks bs s).routes = s.routes := rfl
@[simp] theorem freeBlocks_store (bs : List Nat) (s : State) : (freeBlocks bs s).store = { s.store with free := giveBack bs s.store.free } := rfl
@[simp] theorem freeBlocks_queue (bs : List Nat) (s : State) : (freeBlocks bs s).queue = s.queue := rfl
@[simp] theorem freeBlocks_faults (bs : List Nat) (s : State) : (freeBlocks bs s).faults = s.faults := rfl
@[simp] theorem freeBlocks_cands (bs : List Nat) (s : State) : (freeBlocks bs s).cands = s.cands := rfl
@[simp] theorem freeBlocks_clock (bs : List Nat) (s : State) : (freeBlocks bs s).clock = s.clock := rfl
@[simp] theorem freeBlocks_windows (bs : List Nat) (s : State) : (freeBlocks bs s).windows = s.windows := rfl
@[simp] theorem freeBlocks_notices (bs : List Nat) (s : State) : (freeBlocks bs s).notices = s.notices := rfl
@[simp] theorem freeBlocks_log (bs : List Nat) (s : State) : (freeBlocks bs s).log = s.log := rfl
@[simp] theorem freeBlocks_links (bs : List Nat) (s : State) : (freeBlocks bs s).links = s.links := rfl
@[simp] theorem freeBlocks_shelf (bs : List Nat) (s : State) : (freeBlocks bs s).shelf = s.shelf := rfl
@[simp] theorem freeBlocks_craftArmed (bs : List Nat) (s : State) : (freeBlocks bs s).craftArmed = s.craftArmed := rfl
@[simp] theorem freeBlocks_freeCount (bs : List Nat) (s : State) : (freeBlocks bs s).freeCount = s.freeCount := rfl
@[simp] theorem freeBlocks_pending (bs : List Nat) (s : State) : (freeBlocks bs s).pending = s.pending := rfl

@[simp] theorem frontOff_switch (s : State) : (frontOff s).switch = s.switch := rfl
@[simp] theorem frontOff_front (s : State) : (frontOff s).front = { s.front with laser := false, checking := false } := rfl
@[simp] theorem frontOff_engine (s : State) : (frontOff s).engine = s.engine := rfl
@[simp] theorem frontOff_equip (s : State) : (frontOff s).equip = s.equip := rfl
@[simp] theorem frontOff_device (s : State) : (frontOff s).device = s.device := rfl
@[simp] theorem frontOff_trace (s : State) : (frontOff s).trace = s.trace := rfl
@[simp] theorem frontOff_records (s : State) : (frontOff s).records = s.records := rfl
@[simp] theorem frontOff_routes (s : State) : (frontOff s).routes = s.routes := rfl
@[simp] theorem frontOff_store (s : State) : (frontOff s).store = s.store := rfl
@[simp] theorem frontOff_queue (s : State) : (frontOff s).queue = s.queue := rfl
@[simp] theorem frontOff_faults (s : State) : (frontOff s).faults = s.faults := rfl
@[simp] theorem frontOff_cands (s : State) : (frontOff s).cands = s.cands := rfl
@[simp] theorem frontOff_clock (s : State) : (frontOff s).clock = s.clock := rfl
@[simp] theorem frontOff_windows (s : State) : (frontOff s).windows = s.windows := rfl
@[simp] theorem frontOff_notices (s : State) : (frontOff s).notices = s.notices := rfl
@[simp] theorem frontOff_log (s : State) : (frontOff s).log = s.log := rfl
@[simp] theorem frontOff_links (s : State) : (frontOff s).links = s.links := rfl
@[simp] theorem frontOff_shelf (s : State) : (frontOff s).shelf = s.shelf := rfl
@[simp] theorem frontOff_craftArmed (s : State) : (frontOff s).craftArmed = s.craftArmed := rfl
@[simp] theorem frontOff_freeCount (s : State) : (frontOff s).freeCount = s.freeCount := rfl
@[simp] theorem frontOff_pending (s : State) : (frontOff s).pending = s.pending := rfl

@[simp] theorem logWrite_switch (b : LogBody) (s : State) : (logWrite b s).switch = s.switch := rfl
@[simp] theorem logWrite_front (b : LogBody) (s : State) : (logWrite b s).front = s.front := rfl
@[simp] theorem logWrite_engine (b : LogBody) (s : State) : (logWrite b s).engine = s.engine := rfl
@[simp] theorem logWrite_equip (b : LogBody) (s : State) : (logWrite b s).equip = s.equip := rfl
@[simp] theorem logWrite_device (b : LogBody) (s : State) : (logWrite b s).device = s.device := rfl
@[simp] theorem logWrite_trace (b : LogBody) (s : State) : (logWrite b s).trace = s.trace := rfl
@[simp] theorem logWrite_records (b : LogBody) (s : State) : (logWrite b s).records = s.records := rfl
@[simp] theorem logWrite_routes (b : LogBody) (s : State) : (logWrite b s).routes = s.routes := rfl
@[simp] theorem logWrite_store (b : LogBody) (s : State) : (logWrite b s).store = s.store := rfl
@[simp] theorem logWrite_queue (b : LogBody) (s : State) : (logWrite b s).queue = s.queue := rfl
@[simp] theorem logWrite_faults (b : LogBody) (s : State) : (logWrite b s).faults = s.faults := rfl
@[simp] theorem logWrite_cands (b : LogBody) (s : State) : (logWrite b s).cands = s.cands := rfl
@[simp] theorem logWrite_clock (b : LogBody) (s : State) : (logWrite b s).clock = s.clock := rfl
@[simp] theorem logWrite_windows (b : LogBody) (s : State) : (logWrite b s).windows = s.windows := rfl
@[simp] theorem logWrite_notices (b : LogBody) (s : State) : (logWrite b s).notices = (raiseTo (reachesThreshold s.log) .log s).notices := rfl
@[simp] theorem logWrite_log (b : LogBody) (s : State) : (logWrite b s).log = logAfterWrite s.clock.now b s.log := rfl
@[simp] theorem logWrite_links (b : LogBody) (s : State) : (logWrite b s).links = s.links := rfl
@[simp] theorem logWrite_shelf (b : LogBody) (s : State) : (logWrite b s).shelf = s.shelf := rfl
@[simp] theorem logWrite_craftArmed (b : LogBody) (s : State) : (logWrite b s).craftArmed = s.craftArmed := rfl
@[simp] theorem logWrite_freeCount (b : LogBody) (s : State) : (logWrite b s).freeCount = s.freeCount := rfl
@[simp] theorem logWrite_pending (b : LogBody) (s : State) : (logWrite b s).pending = s.pending := rfl

@[simp] theorem equipError_switch (k : EquipKind) (r : Option RouteNo) (s : State) :
    (equipError k r s).switch = s.switch := rfl
@[simp] theorem equipError_front (k : EquipKind) (r : Option RouteNo) (s : State) :
    (equipError k r s).front = s.front := rfl
@[simp] theorem equipError_engine (k : EquipKind) (r : Option RouteNo) (s : State) :
    (equipError k r s).engine = s.engine := rfl
@[simp] theorem equipError_equip (k : EquipKind) (r : Option RouteNo) (s : State) :
    (equipError k r s).equip = some (match s.equip with
      | none => { kind := k, route := r, time := s.clock.now, latest := none }
      | some e => { e with latest := some k }) := by
  cases h : s.equip <;> simp [equipError, h]
@[simp] theorem equipError_device (k : EquipKind) (r : Option RouteNo) (s : State) :
    (equipError k r s).device = s.device := rfl
@[simp] theorem equipError_trace (k : EquipKind) (r : Option RouteNo) (s : State) :
    (equipError k r s).trace = s.trace := rfl
@[simp] theorem equipError_records (k : EquipKind) (r : Option RouteNo) (s : State) :
    (equipError k r s).records = s.records := rfl
@[simp] theorem equipError_routes (k : EquipKind) (r : Option RouteNo) (s : State) :
    (equipError k r s).routes = s.routes := rfl
@[simp] theorem equipError_store (k : EquipKind) (r : Option RouteNo) (s : State) :
    (equipError k r s).store = s.store := rfl
@[simp] theorem equipError_queue (k : EquipKind) (r : Option RouteNo) (s : State) :
    (equipError k r s).queue = s.queue := rfl
@[simp] theorem equipError_faults (k : EquipKind) (r : Option RouteNo) (s : State) :
    (equipError k r s).faults = s.faults := rfl
@[simp] theorem equipError_cands (k : EquipKind) (r : Option RouteNo) (s : State) :
    (equipError k r s).cands = s.cands := rfl
@[simp] theorem equipError_clock (k : EquipKind) (r : Option RouteNo) (s : State) :
    (equipError k r s).clock = s.clock := rfl
@[simp] theorem equipError_windows (k : EquipKind) (r : Option RouteNo) (s : State) :
    (equipError k r s).windows = s.windows := rfl
@[simp] theorem equipError_notices (k : EquipKind) (r : Option RouteNo) (s : State) :
    (equipError k r s).notices = (raiseAll .equip (logWrite (.equipment k r) s)).notices := rfl
@[simp] theorem equipError_log (k : EquipKind) (r : Option RouteNo) (s : State) :
    (equipError k r s).log = logAfterWrite s.clock.now (.equipment k r) s.log := rfl
@[simp] theorem equipError_links (k : EquipKind) (r : Option RouteNo) (s : State) :
    (equipError k r s).links = s.links := rfl
@[simp] theorem equipError_shelf (k : EquipKind) (r : Option RouteNo) (s : State) :
    (equipError k r s).shelf = s.shelf := rfl
@[simp] theorem equipError_craftArmed (k : EquipKind) (r : Option RouteNo) (s : State) :
    (equipError k r s).craftArmed = s.craftArmed := rfl
@[simp] theorem equipError_freeCount (k : EquipKind) (r : Option RouteNo) (s : State) :
    (equipError k r s).freeCount = s.freeCount := rfl
@[simp] theorem equipError_pending (k : EquipKind) (r : Option RouteNo) (s : State) :
    (equipError k r s).pending = s.pending := rfl

@[simp] theorem freed_state (e : Engine) (st : EngineState) : (e.freed st).state = st := rfl
@[simp] theorem freed_running (e : Engine) (st : EngineState) : (e.freed st).running = none := rfl
@[simp] theorem freed_acq (e : Engine) (st : EngineState) : (e.freed st).acq = e.acq := rfl
@[simp] theorem freed_shotCount (e : Engine) (st : EngineState) : (e.freed st).shotCount = 0 := rfl
@[simp] theorem freed_acc (e : Engine) (st : EngineState) : (e.freed st).acc = [] := rfl
@[simp] theorem freed_timer (e : Engine) (st : EngineState) : (e.freed st).timer = none := rfl
@[simp] theorem freed_marker (e : Engine) (st : EngineState) : (e.freed st).marker = false := rfl
@[simp] theorem freed_analysis (e : Engine) (st : EngineState) : (e.freed st).analysis = none := rfl
@[simp] theorem freed_held (e : Engine) (st : EngineState) : (e.freed st).held = none := rfl

end Sys2Proof.Machine
end

