-- ==== Sys2Proof/Laws/Ops.lean ====
section
/-! SUPPORT. For each shared operation, what it can do and what it leaves as it was: the writes of the log and the raises,
leaving the queue, the take and the hand-out, the stops, the merges, the findings and the finish of a test. -/

namespace Sys2Proof.Machine

/-! ### Raises and log writes -/

@[simp] theorem raiseNotice_settings (k : Notice) (n : NoticeState) : (raiseNotice k n).settings = n.settings := by
  unfold raiseNotice
  split
  · cases h : n.settings.lineMode <;> simp
    split <;> rfl
  · rfl

/-- A raise that is not taken changes nothing for the client (R161). -/
theorem raiseNotice_refused {k : Notice} {n : NoticeState} (h : takesRaise n.settings k = false) : raiseNotice k n = n := by
  simp [raiseNotice, h]

/-- A raise that is taken sets its item and leaves every other item as it was (R161). -/
theorem raiseNotice_pending (k : Notice) (n : NoticeState) :
    (raiseNotice k n).pending = if takesRaise n.settings k then setItem n.pending k else n.pending := by
  unfold raiseNotice
  split
  · cases h : n.settings.lineMode <;> simp
    split <;> rfl
  · rfl

/-- The numbers the card gives are within their sets. -/
def Notice.InRange : Notice → Prop
  | .mark m => m < 4
  | _ => True

theorem anyPending_setItem (p : Pending) (k : Notice) (h : k.InRange) : anyPending (setItem p k) = true := by
  cases k with
  | fault r up => simp [anyPending, setItem, show ¬add p.faults r.val = 0#48 from add_ne_zero p.faults r.val r.isLt]
  | mark m => simp [anyPending, setItem, show ¬add p.marks m = 0#4 from add_ne_zero p.marks m h]
  | _ => simp [anyPending, setItem]

theorem perGet_raiseTo (p : Client → Bool) (k : Notice) (s : State) (c : Client) :
    perGet (raiseTo p k s).notices c = if p c then raiseNotice k (perGet s.notices c) else perGet s.notices c := by
  simp

@[simp] theorem logAfterWrite_next (t : Time) (b : LogBody) (l : ResultLog) :
    (logAfterWrite t b l).next = (l.next + 1) % 65536 := rfl

/-- The ring after a write: the new entry joins it, and in a full ring takes the place of the oldest (R169). -/
theorem logAfterWrite_ring (t : Time) (b : LogBody) (l : ResultLog) :
    (logAfterWrite t b l).ring =
      (if 256 ≤ l.ring.length then l.ring.drop 1 else l.ring) ++ [{ number := l.next, time := t, body := b }] := rfl

theorem logAfterWrite_readers (t : Time) (b : LogBody) (l : ResultLog) (c : Client) :
    perGet (logAfterWrite t b l).readers c = readerAfterWrite l (perGet l.readers c) := by
  simp [logAfterWrite]

theorem logAfterWrite_length (t : Time) (b : LogBody) (l : ResultLog) (h : l.ring.length ≤ 256) :
    (logAfterWrite t b l).ring.length = min 256 (l.ring.length + 1) := by
  rw [logAfterWrite_ring]
  split
  · simp; omega
  · simp; omega

@[simp] theorem readerAfterWrite_threshold (l : ResultLog) (r : LogReader) :
    (readerAfterWrite l r).threshold = r.threshold := by
  unfold readerAfterWrite
  split <;> rfl

/-- What holds of a state before some log writes and is kept by each of them holds after them. -/
theorem logWrites_keeps {P : State → Prop} (hl : ∀ b s, P s → P (logWrite b s)) :
    ∀ (bs : List LogBody) (s : State), P s → P (logWrites bs s)
  | [], _, h => h
  | b :: bs, s, h => logWrites_keeps hl bs (logWrite b s) (hl b s h)

/-! ### Frames -/

/-- What an operation of the Test Queue alone cannot change: all but the queue, the notices and the log. -/
structure QueueOnly (s t : State) : Prop where
  switch : t.switch = s.switch
  front : t.front = s.front
  engine : t.engine = s.engine
  equip : t.equip = s.equip
  device : t.device = s.device
  trace : t.trace = s.trace
  records : t.records = s.records
  routes : t.routes = s.routes
  store : t.store = s.store
  faults : t.faults = s.faults
  cands : t.cands = s.cands
  clock : t.clock = s.clock
  windows : t.windows = s.windows
  links : t.links = s.links
  shelf : t.shelf = s.shelf
  craftArmed : t.craftArmed = s.craftArmed
  freeCount : t.freeCount = s.freeCount
  pending : t.pending = s.pending

theorem QueueOnly.refl (s : State) : QueueOnly s s := by
  constructor <;> rfl

theorem QueueOnly.trans {s t u : State} (h : QueueOnly s t) (k : QueueOnly t u) : QueueOnly s u where
  switch := k.switch.trans h.switch
  front := k.front.trans h.front
  engine := k.engine.trans h.engine
  equip := k.equip.trans h.equip
  device := k.device.trans h.device
  trace := k.trace.trans h.trace
  records := k.records.trans h.records
  routes := k.routes.trans h.routes
  store := k.store.trans h.store
  faults := k.faults.trans h.faults
  cands := k.cands.trans h.cands
  clock := k.clock.trans h.clock
  windows := k.windows.trans h.windows
  links := k.links.trans h.links
  shelf := k.shelf.trans h.shelf
  craftArmed := k.craftArmed.trans h.craftArmed
  freeCount := k.freeCount.trans h.freeCount
  pending := k.pending.trans h.pending

/-- What giving the port, stopping an acquisition or asking for a test cannot change. -/
structure PortOnly (s t : State) : Prop where
  equip : t.equip = s.equip
  device : t.device = s.device
  trace : t.trace = s.trace
  routes : t.routes = s.routes
  faults : t.faults = s.faults
  cands : t.cands = s.cands
  clock : t.clock = s.clock
  windows : t.windows = s.windows
  links : t.links = s.links
  shelf : t.shelf = s.shelf
  craftArmed : t.craftArmed = s.craftArmed
  freeCount : t.freeCount = s.freeCount
  pending : t.pending = s.pending

theorem PortOnly.refl (s : State) : PortOnly s s := by
  constructor <;> rfl

theorem PortOnly.trans {s t u : State} (h : PortOnly s t) (k : PortOnly t u) : PortOnly s u where
  equip := k.equip.trans h.equip
  device := k.device.trans h.device
  trace := k.trace.trans h.trace
  routes := k.routes.trans h.routes
  faults := k.faults.trans h.faults
  cands := k.cands.trans h.cands
  clock := k.clock.trans h.clock
  windows := k.windows.trans h.windows
  links := k.links.trans h.links
  shelf := k.shelf.trans h.shelf
  craftArmed := k.craftArmed.trans h.craftArmed
  freeCount := k.freeCount.trans h.freeCount
  pending := k.pending.trans h.pending

theorem PortOnly.after {s t u : State} (k : PortOnly t u) (h : PortOnly s t) : PortOnly s u := h.trans k

theorem QueueOnly.port {s t : State} (h : QueueOnly s t) : PortOnly s t :=
  ⟨h.equip, h.device, h.trace, h.routes, h.faults, h.cands, h.clock, h.windows, h.links, h.shelf, h.craftArmed,
    h.freeCount, h.pending⟩

/-- What a finding and the finish of a test cannot change. -/
structure FinishOnly (s t : State) : Prop where
  device : t.device = s.device
  trace : t.trace = s.trace
  routes : t.routes = s.routes
  clock : t.clock = s.clock
  windows : t.windows = s.windows
  links : t.links = s.links
  shelf : t.shelf = s.shelf
  craftArmed : t.craftArmed = s.craftArmed
  freeCount : t.freeCount = s.freeCount
  pending : t.pending = s.pending

theorem FinishOnly.refl (s : State) : FinishOnly s s := ⟨rfl, rfl, rfl, rfl, rfl, rfl, rfl, rfl, rfl, rfl⟩

theorem FinishOnly.trans {s t u : State} (h : FinishOnly s t) (k : FinishOnly t u) : FinishOnly s u where
  device := k.device.trans h.device
  trace := k.trace.trans h.trace
  routes := k.routes.trans h.routes
  clock := k.clock.trans h.clock
  windows := k.windows.trans h.windows
  links := k.links.trans h.links
  shelf := k.shelf.trans h.shelf
  craftArmed := k.craftArmed.trans h.craftArmed
  freeCount := k.freeCount.trans h.freeCount
  pending := k.pending.trans h.pending

theorem FinishOnly.after {s t u : State} (k : FinishOnly t u) (h : FinishOnly s t) : FinishOnly s u := h.trans k

theorem PortOnly.finish {s t : State} (h : PortOnly s t) : FinishOnly s t :=
  ⟨h.device, h.trace, h.routes, h.clock, h.windows, h.links, h.shelf, h.craftArmed, h.freeCount, h.pending⟩

/-! ### Leaving the queue -/

theorem raiseTo_queueOnly (p : Client → Bool) (k : Notice) (s : State) : QueueOnly s (raiseTo p k s) := by
  constructor <;> rfl

theorem logWrite_queueOnly (b : LogBody) (s : State) : QueueOnly s (logWrite b s) := by
  constructor <;> rfl

theorem setEntries_queueOnly (es : List Entry) (s : State) : QueueOnly s (setEntries es s) := by
  constructor <;> rfl

/-- The state after the MARK raises of the completed marks `ms` of client `c`. -/
theorem markRaises_keeps {P : State → Prop} (c : Client) (hr : ∀ m s, P s → P (raiseTo (· == c) (.mark m) s)) :
    ∀ (ms : List Nat) (s : State), P s → P (ms.foldl (fun s m => raiseTo (· == c) (.mark m) s) s)
  | [], _, h => h
  | m :: ms, s, h => markRaises_keeps c hr ms _ (hr m s h)

/-- What a change of the open marks and the raises of MARK notices keep is kept when an id leaves a client's wait sets. -/
theorem dropFromMarks_keeps {P : State → Prop} (c : Client) (id : Nat) (s : State)
    (hq : P { s with queue := { s.queue with marks := perSet s.queue.marks c (keptMarks id (perGet s.queue.marks c)) } })
    (hr : ∀ m s, P s → P (raiseTo (· == c) (.mark m) s)) : P (dropFromMarks c id s) :=
  markRaises_keeps c hr _ _ hq

theorem dropFromMarks_queueOnly (c : Client) (id : Nat) (s : State) : QueueOnly s (dropFromMarks c id s) :=
  dropFromMarks_keeps (P := QueueOnly s) c id s
    (by constructor <;> rfl)
    fun _ _ h => h.trans (raiseTo_queueOnly _ _ _)

/-- The entries, the counter and the log stay as they are when an id leaves a client's wait sets. -/
theorem dropFromMarks_queue (c : Client) (id : Nat) (s : State) :
    (dropFromMarks c id s).queue.entries = s.queue.entries ∧ (dropFromMarks c id s).queue.counter = s.queue.counter
      ∧ (dropFromMarks c id s).log = s.log :=
  dropFromMarks_keeps (P := fun t => t.queue.entries = s.queue.entries ∧ t.queue.counter = s.queue.counter ∧ t.log = s.log)
    c id s ⟨rfl, rfl, rfl⟩ fun _ _ h => h

theorem dropFromAllMarks_queueOnly (id : Nat) (s : State) : QueueOnly s (dropFromAllMarks id s) :=
  (((dropFromMarks_queueOnly _ _ _).trans (dropFromMarks_queueOnly _ _ _)).trans (dropFromMarks_queueOnly _ _ _)).trans
    (dropFromMarks_queueOnly _ _ _)

theorem dropFromAllMarks_queue (id : Nat) (s : State) :
    (dropFromAllMarks id s).queue.entries = s.queue.entries ∧ (dropFromAllMarks id s).queue.counter = s.queue.counter
      ∧ (dropFromAllMarks id s).log = s.log := by
  simp [dropFromAllMarks, dropFromMarks_queue]

theorem leaveQueue_queueOnly (e : Entry) (out : TestOutcome) (reqs : RequesterSet) (c : Option Client) (s : State) :
    QueueOnly s (leaveQueue e out reqs c s) :=
  (((setEntries_queueOnly _ _).trans (logWrite_queueOnly _ _)).trans (raiseTo_queueOnly _ _ _)).trans
    (dropFromAllMarks_queueOnly _ _)

/-- What leaves the queue: the entries of that id; one TEST_DONE entry is written (R119). -/
theorem leaveQueue_queue (e : Entry) (out : TestOutcome) (reqs : RequesterSet) (c : Option Client) (s : State) :
    (leaveQueue e out reqs c s).queue.entries = s.queue.entries.filter (fun x => x.id != e.id)
      ∧ (leaveQueue e out reqs c s).queue.counter = s.queue.counter
      ∧ (leaveQueue e out reqs c s).log =
          logAfterWrite s.clock.now (.testDone e.route e.id e.kind out reqs c) s.log := by
  simp [leaveQueue, dropFromAllMarks_queue, removeEntry]

/-- What is kept by each part of leaving the queue is kept by the whole. -/
theorem leaveQueue_keeps {P : State → Prop} (e : Entry) (out : TestOutcome) (reqs : RequesterSet) (c : Option Client)
    (s : State) (h : P s)
    (he : ∀ s, P s → P (removeEntry e.id s))
    (hl : ∀ b s, P s → P (logWrite b s))
    (hr : ∀ p k s, k.InRange → P s → P (raiseTo p k s))
    (hm : ∀ d s, P s → P (dropFromMarks d e.id s)) : P (leaveQueue e out reqs c s) :=
  hm _ _ (hm _ _ (hm _ _ (hm _ _ (hr _ _ _ trivial (hl _ _ (he _ h))))))

/-! ### The reservation -/

theorem returnReservation_eq (s : State) :
    returnReservation s = s
      ∨ ∃ r, s.store.resv = some r ∧ r.phase = .held
          ∧ returnReservation s = { s with store := { s.store with free := giveBack r.blocks s.store.free, resv := none } } := by
  unfold returnReservation
  cases hr : s.store.resv with
  | none => exact .inl rfl
  | some r =>
    cases hp : r.phase with
    | held => exact .inr ⟨r, rfl, hp, by simp [hp]⟩
    | writing w d => exact .inl (by simp [hp])

theorem returnReservation_portOnly (s : State) : PortOnly s (returnReservation s) := by
  rcases returnReservation_eq s with h | ⟨r, -, -, h⟩ <;> rw [h]
  · exact .refl s
  · constructor <;> rfl

@[simp] theorem returnReservation_engine (s : State) : (returnReservation s).engine = s.engine := by
  rcases returnReservation_eq s with h | ⟨r, -, -, h⟩ <;> rw [h]

@[simp] theorem returnReservation_queue (s : State) : (returnReservation s).queue = s.queue := by
  rcases returnReservation_eq s with h | ⟨r, -, -, h⟩ <;> rw [h]

@[simp] theorem returnReservation_front (s : State) : (returnReservation s).front = s.front := by
  rcases returnReservation_eq s with h | ⟨r, -, -, h⟩ <;> rw [h]

@[simp] theorem returnReservation_log (s : State) : (returnReservation s).log = s.log := by
  rcases returnReservation_eq s with h | ⟨r, -, -, h⟩ <;> rw [h]

@[simp] theorem returnReservation_notices (s : State) : (returnReservation s).notices = s.notices := by
  rcases returnReservation_eq s with h | ⟨r, -, -, h⟩ <;> rw [h]

@[simp] theorem returnReservation_records (s : State) : (returnReservation s).records = s.records := by
  rcases returnReservation_eq s with h | ⟨r, -, -, h⟩ <;> rw [h]

@[simp] theorem returnReservation_switch (s : State) : (returnReservation s).switch = s.switch := by
  rcases returnReservation_eq s with h | ⟨r, -, -, h⟩ <;> rw [h]

/-- The reservation of `n` blocks: made from the lowest-numbered free ones when there are enough, else nothing moves
(R86, R87). -/
theorem reserve_eq (r : RouteNo) (acq n : Nat) (s : State) :
    (s.store.free.length < n ∧ reserve r acq n s = none)
      ∨ (n ≤ s.store.free.length ∧ reserve r acq n s = some { s with store := { s.store with
          free := s.store.free.drop n
          resv := some { route := r, acq := acq, blocks := s.store.free.take n, phase := .held } } }) := by
  unfold reserve
  by_cases h : n ≤ s.store.free.length
  · exact .inr ⟨h, by simp [h]⟩
  · exact .inl ⟨by omega, by simp [h]⟩

/-! ### The take and the hand-out -/

theorem startSwitching_portOnly (r : RouteNo) (s : State) : PortOnly s (startSwitching r s) := by
  unfold startSwitching
  split <;> constructor <;> rfl

@[simp] theorem startSwitching_queue (r : RouteNo) (s : State) : (startSwitching r s).queue = s.queue := by
  unfold startSwitching
  split <;> rfl

@[simp] theorem startSwitching_store (r : RouteNo) (s : State) : (startSwitching r s).store = s.store := by
  unfold startSwitching
  split <;> rfl

@[simp] theorem startSwitching_log (r : RouteNo) (s : State) : (startSwitching r s).log = s.log := by
  unfold startSwitching
  split <;> rfl

@[simp] theorem startSwitching_notices (r : RouteNo) (s : State) : (startSwitching r s).notices = s.notices := by
  unfold startSwitching
  split <;> rfl

@[simp] theorem startSwitching_records (r : RouteNo) (s : State) : (startSwitching r s).records = s.records := by
  unfold startSwitching
  split <;> rfl

@[simp] theorem startSwitching_running (r : RouteNo) (s : State) :
    (startSwitching r s).engine.running = s.engine.running ∧ (startSwitching r s).engine.acq = s.engine.acq
      ∧ (startSwitching r s).front.laser = s.front.laser := by
  unfold startSwitching
  split <;> exact ⟨rfl, rfl, rfl⟩

/-- A take sends the engine to SWITCHING, or straight to LIVE_CHECK where the switch already stands at the port (R8). -/
theorem startSwitching_state (r : RouteNo) (s : State) :
    (startSwitching r s).engine.state = if s.switch = .standing (.port r) then .liveCheck else .switching := by
  unfold startSwitching
  split <;> rfl

theorem taken_portOnly (e : Entry) (b : RouteBody) (s : State) : PortOnly s (taken e b s) := by
  constructor <;> rfl

theorem takeShort_portOnly (e : Entry) (b : RouteBody) (s : State) : PortOnly s (takeShort e b s) :=
  (leaveQueue_queueOnly _ _ _ _ _).port.after (by constructor <;> rfl)

theorem reserve_portOnly {r : RouteNo} {acq n : Nat} {s t : State} (h : reserve r acq n s = some t) : PortOnly s t := by
  rcases reserve_eq r acq n s with ⟨-, k⟩ | ⟨-, k⟩
  · rw [k] at h; cases h
  · rw [k] at h; cases h
    constructor <;> rfl

/-- What a take can do: nothing for an UNUSED route; send the engine to the port, a capture with its blocks reserved; or
finish STORE_FULL (R6, R7). -/
theorem takeEntry_cases (e : Entry) (s : State) :
    (s.routes[e.route].body = none ∧ takeEntry e s = s)
      ∨ ∃ b, s.routes[e.route].body = some b
          ∧ ((e.kind = .check ∧ takeEntry e s = startSwitching e.route (taken e b s))
            ∨ (e.kind = .capture ∧ ∃ held,
                reserve e.route ((s.engine.acq + 1) % 65536) (b.acq.len / 1024) (taken e b s) = some held
                  ∧ takeEntry e s = startSwitching e.route held)
            ∨ (e.kind = .capture
                ∧ reserve e.route ((s.engine.acq + 1) % 65536) (b.acq.len / 1024) (taken e b s) = none
                ∧ takeEntry e s = takeShort e b s)) := by
  unfold takeEntry
  cases hb : s.routes[e.route].body with
  | none => exact .inl ⟨rfl, rfl⟩
  | some b =>
    refine .inr ⟨b, rfl, ?_⟩
    dsimp only
    cases hk : e.kind with
    | check => exact .inl ⟨rfl, rfl⟩
    | capture =>
      dsimp only
      cases hr : reserve e.route ((s.engine.acq + 1) % 65536) (b.acq.len / 1024) (taken e b s) with
      | some held => exact .inr (.inl ⟨rfl, held, rfl, rfl⟩)
      | none => exact .inr (.inr ⟨rfl, rfl, rfl⟩)

theorem takeEntry_portOnly (e : Entry) (s : State) : PortOnly s (takeEntry e s) := by
  rcases takeEntry_cases e s with ⟨-, h⟩ | ⟨b, -, ⟨-, h⟩ | ⟨-, held, hr, h⟩ | ⟨-, -, h⟩⟩ <;> rw [h]
  · exact .refl s
  · exact (startSwitching_portOnly _ _).after (taken_portOnly e b s)
  · exact (startSwitching_portOnly _ _).after ((reserve_portOnly hr).after (taken_portOnly e b s))
  · exact takeShort_portOnly e b s

/-- The entry the hand-out takes: an eligible one that stands in the queue, with the engine IDLE (R110). -/
def MayTake (s : State) (e : Entry) : Prop :=
  s.engine.state = .idle ∧ e ∈ s.queue.entries ∧ isEligible s e = true
    ∧ s.queue.entries.find? (isEligible s) = some e

theorem handOutLoop_keeps {P : State → Prop} (ht : ∀ s e, P s → MayTake s e → P (takeEntry e s)) :
    ∀ (n : Nat) (s : State), P s → P (handOutLoop n s)
  | 0, _, h => h
  | n + 1, s, h => by
    unfold handOutLoop
    split
    · rename_i hi
      split
      · rename_i e he
        exact handOutLoop_keeps ht n _ (ht s e h ⟨hi, List.mem_of_find?_eq_some he, List.find?_some he, he⟩)
      · exact h
    · exact h

/-- The hand-out is a run of takes, each of the first eligible entry of an IDLE engine: what each take keeps it keeps. -/
theorem handOut_keeps {P : State → Prop} (ht : ∀ s e, P s → MayTake s e → P (takeEntry e s)) (s : State) (h : P s) :
    P (handOut s) :=
  handOutLoop_keeps ht _ s h

theorem handOut_portOnly (s : State) : PortOnly s (handOut s) :=
  handOut_keeps (P := PortOnly s) (fun _ _ h _ => h.trans (takeEntry_portOnly _ _)) s (.refl s)

/-- No hand-out is made while the engine is in any state other than IDLE (R110). -/
theorem handOut_of_not_idle {s : State} (h : s.engine.state ≠ .idle) : handOut s = s := by
  unfold handOut
  cases s.queue.entries.length with
  | zero => rfl
  | succ n => simp [handOutLoop, h]

/-- The hand-out takes nothing where no entry is eligible (R110). -/
theorem handOut_of_none {s : State} (h : s.queue.entries.find? (isEligible s) = none) : handOut s = s := by
  unfold handOut
  cases s.queue.entries.length with
  | zero => rfl
  | succ n => simp [handOutLoop, h]

/-! ### Stops and merges -/

theorem frontOff_portOnly (s : State) : PortOnly s (frontOff s) := by
  constructor <;> rfl

theorem stopAcquisition_portOnly (s : State) : PortOnly s (stopAcquisition s) :=
  PortOnly.trans ((frontOff_portOnly s).trans (returnReservation_portOnly _))
    (by constructor <;> rfl)

@[simp] theorem stopAcquisition_queue (s : State) : (stopAcquisition s).queue = s.queue := by
  simp [stopAcquisition]

@[simp] theorem stopAcquisition_log (s : State) : (stopAcquisition s).log = s.log := by
  simp [stopAcquisition]

@[simp] theorem stopAcquisition_notices (s : State) : (stopAcquisition s).notices = s.notices := by
  simp [stopAcquisition]

@[simp] theorem stopAcquisition_records (s : State) : (stopAcquisition s).records = s.records := by
  simp [stopAcquisition]

@[simp] theorem stopAcquisition_engine (s : State) : (stopAcquisition s).engine = s.engine.freed .idle := by
  simp [stopAcquisition]

@[simp] theorem stopAcquisition_front (s : State) :
    (stopAcquisition s).front = { s.front with laser := false, checking := false } := by
  simp [stopAcquisition]

theorem absorb_queueOnly (a b : Entry) (s : State) : QueueOnly s (absorb a b s) := by
  constructor <;> rfl

/-- The merge leaves all as it was, or one WAITING entry of the route and kind absorbs another that stands later (R113). -/
theorem mergeTwins_eq (r : RouteNo) (k : TestKind) (s : State) :
    mergeTwins r k s = s
      ∨ ∃ a b rest, s.queue.entries.filter (fun e => isWaiting e && decide (e.route = r) && decide (e.kind = k))
            = a :: b :: rest ∧ mergeTwins r k s = absorb a b s := by
  unfold mergeTwins
  split
  · rename_i a b rest h
    exact .inr ⟨a, b, rest, h, rfl⟩
  · exact .inl rfl

theorem mergeTwins_queueOnly (r : RouteNo) (k : TestKind) (s : State) : QueueOnly s (mergeTwins r k s) := by
  rcases mergeTwins_eq r k s with h | ⟨a, b, _, -, h⟩ <;> rw [h]
  · exact .refl s
  · exact absorb_queueOnly a b s

/-- A stop order is TOO_LATE and changes nothing, or the acquisition of the RUNNING entry `e` ends and `e` waits again and
merges (R112, R17). -/
theorem stopRunning_eq (s : State) :
    stopRunning s = s
      ∨ ∃ e, runningEntry s = some e ∧ stopsFor (e.running.getD 0) s = true
          ∧ stopRunning s = mergeTwins e.route e.kind
              (setEntries (s.queue.entries.map fun x => if x.id = e.id then { x with running := none } else x)
                (stopAcquisition s)) := by
  unfold stopRunning
  split
  · exact .inl rfl
  · rename_i e he
    split
    · rename_i hs
      exact .inr ⟨e, he, hs, rfl⟩
    · exact .inl rfl

theorem stopRunning_portOnly (s : State) : PortOnly s (stopRunning s) := by
  rcases stopRunning_eq s with h | ⟨e, -, -, h⟩ <;> rw [h]
  · exact .refl s
  · exact ((stopAcquisition_portOnly s).trans (setEntries_queueOnly _ _).port).trans (mergeTwins_queueOnly _ _ _).port

/-- What a stop order keeps is kept where it is sent only under a condition. -/
theorem preempt_keeps {P : State → Prop} (hs : ∀ s, P s → P (stopRunning s)) (s : State) (h : P s) : P (preempt s) := by
  unfold preempt
  split
  · split
    · exact hs s h
    · exact h
  · exact h

/-- What the takes and the stop orders keep, the giving of the port keeps (R111, R114). -/
theorem arbitrate_keeps {P : State → Prop} (hs : ∀ s, P s → P (stopRunning s))
    (ht : ∀ s e, P s → MayTake s e → P (takeEntry e s)) (s : State) (h : P s) : P (arbitrate s) :=
  handOut_keeps ht _ (preempt_keeps hs s h)

/-- What the takes and the stop orders keep, a coverage report keeps (R115). -/
theorem coverageReport_keeps {P : State → Prop} (hs : ∀ s, P s → P (stopRunning s))
    (ht : ∀ s e, P s → MayTake s e → P (takeEntry e s)) (s : State) (h : P s) : P (coverageReport s) := by
  refine handOut_keeps ht _ ?_
  split
  · split
    · exact hs s h
    · exact h
  · exact h

/-- What the takes and the stop orders keep, a report of the Route Table keeps (R116). -/
theorem routeReport_keeps {P : State → Prop} (hs : ∀ s, P s → P (stopRunning s))
    (ht : ∀ s e, P s → MayTake s e → P (takeEntry e s)) (was : RouteNo → Bool) (s : State) (h : P s) :
    P (routeReport was s) := by
  refine arbitrate_keeps hs ht _ ?_
  split
  · split
    · exact hs s h
    · exact h
  · exact h

theorem arbitrate_portOnly (s : State) : PortOnly s (arbitrate s) :=
  arbitrate_keeps (P := PortOnly s) (fun _ h => h.trans (stopRunning_portOnly _))
    (fun _ _ h _ => h.trans (takeEntry_portOnly _ _)) s (.refl s)

theorem coverageReport_portOnly (s : State) : PortOnly s (coverageReport s) :=
  coverageReport_keeps (P := PortOnly s) (fun _ h => h.trans (stopRunning_portOnly _))
    (fun _ _ h _ => h.trans (takeEntry_portOnly _ _)) s (.refl s)

theorem routeReport_portOnly (was : RouteNo → Bool) (s : State) : PortOnly s (routeReport was s) :=
  routeReport_keeps (P := PortOnly s) (fun _ h => h.trans (stopRunning_portOnly _))
    (fun _ _ h _ => h.trans (takeEntry_portOnly _ _)) was s (.refl s)

/-! ### Asking for a test -/

/-- What asking for a test can do: refuse and change nothing, join a WAITING entry of the route and kind, or make a new
entry (R105). -/
theorem askTest_cases (who : Nat) (r : RouteNo) (k : TestKind) (cls : TestClass) (s : State) :
    ((askTest who r k cls s).2 = s ∧ ∀ id w, (askTest who r k cls s).1 ≠ .placed id w)
      ∨ (isClosed s r = false ∧ ∃ e ∈ s.queue.entries, isWaiting e = true ∧ e.route = r ∧ e.kind = k
          ∧ askTest who r k cls s = (.placed e.id .joined, joinEntry who cls e s))
      ∨ (isClosed s r = false ∧ s.queue.entries.length < 32
          ∧ (∀ e ∈ s.queue.entries, isWaiting e = true → ¬(e.route = r ∧ e.kind = k))
          ∧ askTest who r k cls s = (.placed (freshId s.queue.entries 33 s.queue.counter) .new,
              newEntry (freshId s.queue.entries 33 s.queue.counter) who r k cls s)) := by
  unfold askTest
  split
  · exact .inl ⟨rfl, by simp⟩
  split
  · exact .inl ⟨rfl, by simp⟩
  split
  · exact .inl ⟨rfl, by simp⟩
  rename_i hh hb
  have hc : isClosed s r = false := by simp [isClosed, hh, hb]
  split
  · rename_i e he
    have hp := List.find?_some he
    simp only [Bool.and_eq_true, decide_eq_true_eq] at hp
    exact .inr (.inl ⟨hc, e, List.mem_of_find?_eq_some he, hp.1.1, hp.1.2, hp.2, rfl⟩)
  · rename_i hn
    split
    · exact .inl ⟨rfl, by simp⟩
    · rename_i hl
      refine .inr (.inr ⟨hc, by omega, fun e hm hw hk => ?_, rfl⟩)
      have := List.find?_eq_none.mp hn e hm
      simp [hw, hk.1, hk.2] at this

theorem joinEntry_portOnly (who : Nat) (cls : TestClass) (e : Entry) (s : State) : PortOnly s (joinEntry who cls e s) := by
  unfold joinEntry
  dsimp only
  split
  · exact (setEntries_queueOnly _ _).port.trans (arbitrate_portOnly _)
  · exact (setEntries_queueOnly _ _).port

theorem newEntry_portOnly (id who : Nat) (r : RouteNo) (k : TestKind) (cls : TestClass) (s : State) :
    PortOnly s (newEntry id who r k cls s) := by
  unfold newEntry
  dsimp only
  split
  · exact (arbitrate_portOnly _).after (by constructor <;> rfl)
  · exact (handOut_portOnly _).after (by constructor <;> rfl)

theorem askTest_portOnly (who : Nat) (r : RouteNo) (k : TestKind) (cls : TestClass) (s : State) :
    PortOnly s (askTest who r k cls s).2 := by
  rcases askTest_cases who r k cls s with h | ⟨-, e, -, -, -, -, h⟩ | ⟨-, -, -, h⟩
  · rw [h.1]; exact .refl s
  · rw [h]; exact joinEntry_portOnly _ _ _ _
  · rw [h]; exact newEntry_portOnly _ _ _ _ _ _

/-! ### Findings and finishes -/

/-- What a finding can do: nothing, refresh the fault record, adopt its condition, or leave a candidate and ask for a
confirmation (R129 to R132). -/
theorem takeFinding_cases (f : Finding) (s : State) :
    takeFinding f s = s
      ∨ (∃ b, s.routes[f.route].body = some b ∧ b.baseline.isSome = true
          ∧ ((f.judgement.cond = s.faults[f.route].cond
                ∧ takeFinding f s = setFault f.route (refreshed f s.faults[f.route]) (setCand f.route none s))
            ∨ (f.judgement.cond ≠ s.faults[f.route].cond
                ∧ agreeAfter f.judgement.cond s.cands[f.route] = b.judging.confirm
                ∧ takeFinding f s = reportChange f.route f.judgement.cond (some (f.id, .check)) none
                    (setFault f.route (adopted f) (setCand f.route none s)))
            ∨ (f.judgement.cond ≠ s.faults[f.route].cond
                ∧ agreeAfter f.judgement.cond s.cands[f.route] ≠ b.judging.confirm
                ∧ takeFinding f s = (askTest confirmBit f.route .check f.cls
                    (setCand f.route
                      (some { cond := f.judgement.cond, agree := agreeAfter f.judgement.cond s.cands[f.route] }) s)).2))) := by
  unfold takeFinding
  cases hb : s.routes[f.route].body with
  | none => exact .inl rfl
  | some b =>
    dsimp only
    cases hi : b.baseline with
    | none => exact .inl (by simp)
    | some x =>
      right
      refine ⟨b, rfl, by simp [hi], ?_⟩
      by_cases hc : f.judgement.cond = s.faults[f.route].cond
      · exact .inl ⟨hc, by rw [if_pos hc]; simp⟩
      · by_cases hn : agreeAfter f.judgement.cond s.cands[f.route] = b.judging.confirm
        · exact .inr (.inl ⟨hc, hn, by simp only [Option.isNone_some, Bool.false_eq_true, if_false, if_neg hc, if_pos hn]⟩)
        · exact .inr (.inr ⟨hc, hn, by simp only [Option.isNone_some, Bool.false_eq_true, if_false, if_neg hc, if_neg hn]⟩)

theorem takeFinding_finishOnly (f : Finding) (s : State) : FinishOnly s (takeFinding f s) := by
  rcases takeFinding_cases f s with h | ⟨b, -, -, ⟨-, h⟩ | ⟨-, -, h⟩ | ⟨-, -, h⟩⟩ <;> rw [h]
  · exact .refl s
  · exact ⟨rfl, rfl, rfl, rfl, rfl, rfl, rfl, rfl, rfl, rfl⟩
  · exact ⟨rfl, rfl, rfl, rfl, rfl, rfl, rfl, rfl, rfl, rfl⟩
  · exact (askTest_portOnly _ _ _ _ _).finish.after ⟨rfl, rfl, rfl, rfl, rfl, rfl, rfl, rfl, rfl, rfl⟩

theorem equipError_finishOnly (k : EquipKind) (r : Option RouteNo) (s : State) : FinishOnly s (equipError k r s) :=
  ⟨rfl, rfl, rfl, rfl, rfl, rfl, rfl, rfl, rfl, rfl⟩

theorem reportFinish_keeps {P : State → Prop} (id : Nat) (out : TestOutcome) (s : State) (h : P s)
    (hleave : ∀ e, e ∈ s.queue.entries → P (leaveQueue e out e.reqs none s)) : P (reportFinish id out s) := by
  unfold reportFinish
  cases he : s.queue.entries.find? (fun e => e.id == id) with
  | none => exact h
  | some e => exact hleave e (List.mem_of_find?_eq_some he)

/-- The finish of a running entry is made of the return of the reservation, the equipment error, the test record, the
leaving of the queue and the finding, in that order (R16): what each of them keeps it keeps. -/
theorem finishEntry_keeps {P : State → Prop} (out : TestOutcome) (err : Option EquipKind) (held : Option HeldAnalysis)
    (j : Option Judgement) (s : State) (h : P s)
    (hres : ∀ s, P s → P (returnReservation s))
    (herr : ∀ k r s, P s → P (equipError k r s))
    (hrec : ∀ r t s, P s → P (setRecord r t s))
    (hleave : ∀ e o q s, e ∈ s.queue.entries → P s → P (leaveQueue e o q none s))
    (hfind : ∀ f s, j = some f.judgement → P s → P (takeFinding f s)) :
    P (finishEntry out err held j s) := by
  unfold finishEntry
  cases s.engine.running with
  | none => exact h
  | some run =>
    dsimp only
    have h1 : P (withError err run.route (returnReservation s)) := by
      cases err with
      | none => exact hres s h
      | some k => exact herr _ _ _ (hres s h)
    have h2 := hrec run.route (some (finishRecord run s.engine.acq out s.clock.now held j)) _ h1
    have h3 := reportFinish_keeps run.id out _ h2 fun e he => hleave e out e.reqs _ he h2
    cases held with
    | none => exact h3
    | some hd =>
      cases j with
      | none => exact h3
      | some jd => exact hfind _ _ rfl h3

theorem finishEntry_finishOnly (out : TestOutcome) (err : Option EquipKind) (held : Option HeldAnalysis)
    (j : Option Judgement) (s : State) : FinishOnly s (finishEntry out err held j s) :=
  finishEntry_keeps (P := FinishOnly s) out err held j s (.refl s)
    (fun _ h => h.trans (returnReservation_portOnly _).finish)
    (fun _ _ _ h => h.trans (equipError_finishOnly _ _ _))
    (fun _ _ _ h => h.trans ⟨rfl, rfl, rfl, rfl, rfl, rfl, rfl, rfl, rfl, rfl⟩)
    (fun _ _ _ _ _ h => h.trans (leaveQueue_queueOnly _ _ _ _ _).port.finish)
    (fun _ _ _ h => h.trans (takeFinding_finishOnly _ _))

theorem concludeIn_portOnly (st : EngineState) (s : State) : PortOnly s (concludeIn st s) :=
  (handOut_portOnly _).after (by constructor <;> rfl)

theorem homeSwitch_portOnly (s : State) : PortOnly s (homeSwitch s) := by
  unfold homeSwitch
  split
  · exact (handOut_portOnly _).after (by constructor <;> rfl)
  · constructor <;> rfl

theorem resumeHoming_portOnly (s : State) : PortOnly s (resumeHoming s) := by
  unfold resumeHoming
  split
  · exact homeSwitch_portOnly s
  · exact .refl s

theorem leaveFaulted_portOnly (s : State) : PortOnly s (leaveFaulted s) := by
  unfold leaveFaulted
  split
  · constructor <;> rfl
  · exact homeSwitch_portOnly s

/-! ### Requests on a link -/

/-- A request taken by a link that is ready, from a client that may send it, leaves the owner's state with the reply
owed (R179, R180). -/
theorem request_ready {c : Client} {s : State} (tag : Byte) (code : Nat) (own : Owner)
    (h : s.shelf = none) (hl : (perGet s.links c).service = none) (hp : permitted code c = true) :
    request c tag code own s = .next (answer c tag code (own s)) := by
  simp [request, onLink, ifPermitted, h, hl, hp]

/-- A request from a client that may not send it is answered NOT_PERMITTED and has no effect (R180). -/
theorem request_refused {c : Client} {s : State} (tag : Byte) (code : Nat) (own : Owner)
    (h : s.shelf = none) (hl : (perGet s.links c).service = none) (hp : permitted code c = false) :
    request c tag code own s = .next (answer c tag code (s, .notPermitted, .none)) := by
  simp [request, onLink, ifPermitted, h, hl, hp]

end Sys2Proof.Machine
end

