-- ==== Sys2Proof/Laws/Store.lean ====
section
/-! SUPPORT. The block contents: every operation keeps their canonical form, and a read after a write. The free pool as a
set of block numbers kept in increasing order. -/

namespace Sys2Proof.Machine

/-! ### Reads and writes of a block -/

@[simp] theorem readBlock_nil (b : Nat) : readBlock [] b = blankBlock := rfl

theorem readBlock_erase_same (b : Nat) (m : BlockMem) : readBlock (eraseBlock b m) b = blankBlock := by
  induction m with
  | nil => rfl
  | cons p m ih =>
    obtain ⟨k, ls⟩ := p
    by_cases h : k = b
    · simpa [eraseBlock, h] using ih
    · simpa [eraseBlock, h, readBlock] using ih

theorem readBlock_erase_other {b c : Nat} (h : c ≠ b) (m : BlockMem) : readBlock (eraseBlock b m) c = readBlock m c := by
  induction m with
  | nil => rfl
  | cons p m ih =>
    obtain ⟨k, ls⟩ := p
    by_cases hk : k = b
    · have hc : ¬k = c := fun e => h (e.symm.trans hk)
      have h2 : eraseBlock b ((k, ls) :: m) = eraseBlock b m := by simp [eraseBlock, hk]
      rw [h2, ih, readBlock, if_neg hc]
    · have h2 : eraseBlock b ((k, ls) :: m) = (k, ls) :: eraseBlock b m := by simp [eraseBlock, hk]
      rw [h2]
      by_cases hc : k = c
      · simp [readBlock, hc]
      · simp [readBlock, hc, ih]

theorem readBlock_insert (b : Nat) (ls : List Nat) (m : BlockMem) (c : Nat) (h : ∀ p ∈ m, p.1 ≠ b) :
    readBlock (insertBlock b ls m) c = if c = b then ls else readBlock m c := by
  induction m with
  | nil =>
    by_cases hc : c = b
    · simp [insertBlock, readBlock, hc]
    · simp [insertBlock, readBlock, hc, show ¬b = c from fun e => hc e.symm]
  | cons p m ih =>
    obtain ⟨k, x⟩ := p
    have hk : k ≠ b := h (k, x) (by simp)
    have ih := ih fun q hq => h q (by simp [hq])
    unfold insertBlock
    split
    · by_cases hc : c = b
      · simp [readBlock, hc]
      · simp [readBlock, hc, show ¬b = c from fun e => hc e.symm]
    · by_cases hc : c = b
      · subst hc
        simp [readBlock, hk, ih]
      · by_cases hkc : k = c
        · simp [readBlock, hkc, hc]
        · simp [readBlock, hkc, ih, hc]

theorem not_mem_erase (b : Nat) (m : BlockMem) : ∀ p ∈ eraseBlock b m, p.1 ≠ b := by
  intro p hp
  simp [eraseBlock] at hp
  exact hp.2

/-- A block reads as what was last written to it, and a write leaves every other block as it was. -/
theorem readBlock_writeBlock (b : Nat) (ls : List Nat) (m : BlockMem) (c : Nat) :
    readBlock (writeBlock b ls m) c = if c = b then ls else readBlock m c := by
  unfold writeBlock
  split
  · rename_i hl
    by_cases hc : c = b
    · subst hc; rw [readBlock_erase_same, if_pos rfl, hl]
    · rw [readBlock_erase_other hc, if_neg hc]
  · rw [readBlock_insert b ls _ c (not_mem_erase b m)]
    by_cases hc : c = b
    · simp [hc]
    · simp [hc, readBlock_erase_other hc]

/-! ### The canonical form -/

theorem blockMemWf_iff (m : BlockMem) :
    blockMemWf m = true ↔ m.Pairwise (fun p q => p.1 < q.1) ∧ ∀ p ∈ m, p.1 < 1024 ∧ p.2 ≠ blankBlock := by
  simp [blockMemWf]

theorem erase_wf (b : Nat) {m : BlockMem} (h : blockMemWf m = true) : blockMemWf (eraseBlock b m) = true := by
  rw [blockMemWf_iff] at h ⊢
  refine ⟨h.1.sublist List.filter_sublist, fun p hp => h.2 p ?_⟩
  simp [eraseBlock] at hp
  exact hp.1

theorem mem_insertBlock (b : Nat) (ls : List Nat) (m : BlockMem) (p : Nat × List Nat) :
    p ∈ insertBlock b ls m ↔ p = (b, ls) ∨ p ∈ m := by
  induction m with
  | nil => simp [insertBlock]
  | cons q m ih =>
    obtain ⟨k, x⟩ := q
    unfold insertBlock
    split
    · simp
    · simp only [List.mem_cons, ih]; tauto

theorem insert_wf (b : Nat) (ls : List Nat) (m : BlockMem) (hb : b < 1024) (hl : ls ≠ blankBlock)
    (hm : ∀ p ∈ m, p.1 ≠ b) (h : blockMemWf m = true) : blockMemWf (insertBlock b ls m) = true := by
  rw [blockMemWf_iff] at h ⊢
  constructor
  · induction m with
    | nil => simp [insertBlock]
    | cons q m ih =>
      obtain ⟨k, x⟩ := q
      obtain ⟨hp, ha⟩ := h
      rw [List.pairwise_cons] at hp
      have hk : k ≠ b := hm (k, x) (by simp)
      unfold insertBlock
      split
      · rename_i hlt
        rw [List.pairwise_cons]
        refine ⟨fun p hq => ?_, List.pairwise_cons.mpr hp⟩
        rcases List.mem_cons.mp hq with rfl | hq
        · exact hlt
        · exact Nat.lt_trans hlt (hp.1 p hq)
      · rename_i hge
        rw [List.pairwise_cons]
        refine ⟨fun p hq => ?_, ih (fun p hq => hm p (by simp [hq])) ⟨hp.2, fun p hq => ha p (by simp [hq])⟩⟩
        rcases (mem_insertBlock b ls m p).mp hq with rfl | hq
        · exact Nat.lt_of_le_of_ne (Nat.le_of_not_lt hge) hk
        · exact hp.1 p hq
  · intro p hp
    rcases (mem_insertBlock b ls m p).mp hp with rfl | hp
    · exact ⟨hb, hl⟩
    · exact h.2 p hp

/-- A write keeps the canonical form. -/
theorem writeBlock_wf (b : Nat) (ls : List Nat) {m : BlockMem} (hb : b < 1024) (h : blockMemWf m = true) :
    blockMemWf (writeBlock b ls m) = true := by
  unfold writeBlock
  split
  · exact erase_wf b h
  · rename_i hl
    exact insert_wf b ls _ hb hl (not_mem_erase b m) (erase_wf b h)

/-- The memory of the card after POWER-ON has the canonical form. -/
theorem reset_mem_wf : blockMemWf State.reset.store.mem = true := rfl

/-! ### The free pool -/

theorem mem_insertNumber (b : Nat) (l : List Nat) (x : Nat) : x ∈ insertNumber b l ↔ x = b ∨ x ∈ l := by
  induction l with
  | nil => simp [insertNumber]
  | cons k l ih =>
    unfold insertNumber
    split
    · simp
    · split
      · rename_i h; subst h; simp
      · simp only [List.mem_cons, ih]; tauto

theorem insertNumber_sorted (b : Nat) (l : List Nat) (h : l.Pairwise (· < ·)) : (insertNumber b l).Pairwise (· < ·) := by
  induction l with
  | nil => simp [insertNumber]
  | cons k l ih =>
    rw [List.pairwise_cons] at h
    unfold insertNumber
    split
    · rename_i hlt
      rw [List.pairwise_cons]
      refine ⟨fun x hx => ?_, List.pairwise_cons.mpr h⟩
      rcases List.mem_cons.mp hx with rfl | hx
      · exact hlt
      · exact Nat.lt_trans hlt (h.1 x hx)
    · split
      · exact List.pairwise_cons.mpr h
      · rename_i hge hne
        rw [List.pairwise_cons]
        refine ⟨fun x hx => ?_, ih h.2⟩
        rcases (mem_insertNumber b l x).mp hx with rfl | hx
        · omega
        · exact h.1 x hx

/-- A block that was not in the pool joins it once. -/
theorem insertNumber_perm {b : Nat} {l : List Nat} (h : b ∉ l) : (insertNumber b l).Perm (b :: l) := by
  induction l with
  | nil => simp [insertNumber]
  | cons k l ih =>
    unfold insertNumber
    split
    · exact .refl _
    · split
      · rename_i hk; exact absurd (by simp [hk]) h
      · exact ((ih (fun hm => h (by simp [hm]))).cons k).trans (.swap b k l)

theorem giveBack_sorted (bs : List Nat) : ∀ (free : List Nat), free.Pairwise (· < ·) → (giveBack bs free).Pairwise (· < ·) := by
  induction bs with
  | nil => exact fun _ h => h
  | cons b bs ih => exact fun free h => ih _ (insertNumber_sorted b free h)

/-- Blocks given back, none of which was in the pool, join it (R86). -/
theorem giveBack_perm (bs : List Nat) : ∀ (free : List Nat), (bs ++ free).Nodup → (giveBack bs free).Perm (bs ++ free) := by
  induction bs with
  | nil => exact fun _ _ => .refl _
  | cons b bs ih =>
    intro free h
    rw [List.cons_append, List.nodup_cons] at h
    have hb : b ∉ free := fun hm => h.1 (by simp [hm])
    have hp : (bs ++ insertNumber b free).Perm (bs ++ (b :: free)) := (insertNumber_perm hb).append_left bs
    have hn : (bs ++ insertNumber b free).Nodup := by
      rw [hp.nodup_iff, List.perm_middle.nodup_iff, List.nodup_cons]
      exact h
    exact (ih _ hn).trans (hp.trans List.perm_middle)

theorem giveBack_mem (bs free : List Nat) (x : Nat) : x ∈ giveBack bs free ↔ x ∈ bs ∨ x ∈ free := by
  induction bs generalizing free with
  | nil => simp [giveBack]
  | cons b bs ih =>
    have : giveBack (b :: bs) free = giveBack bs (insertNumber b free) := rfl
    rw [this, ih, mem_insertNumber]
    simp only [List.mem_cons]
    tauto

end Sys2Proof.Machine
end

