-- ==== Sys2Proof/Laws/Finish.lean ====
section
/-! SUPPORT. The notices and marks that the shared operations leave, raise by raise; the equality a frame gives; what a
request that is taken answers; and the finish of a test whole (R16). -/

namespace Sys2Proof.Machine

/-! ### Frames as equalities -/

theorem QueueOnly.eq {s t : State} (h : QueueOnly s t) :
    t = { s with queue := t.queue, log := t.log, notices := t.notices } := by
  cases t
  cases h
  cases s
  simp_all

/-! ### Requests -/

/-- A request that is taken is answered with what its owner answers (R179, R180). -/
theorem request_answered {c : Client} {tag : Byte} {code : Nat} {own : Owner} {s t : State} {st : Status} {d : ReplyData}
    (h : Ready c s) (hp : permitted code c = true) (ho : own s = (t, st, d)) :
    request c tag code own s = .next (replied c tag code st d t) := by
  rw [request_ready tag code own h.1 h.2 hp, ho]
  rfl

/-- A request that Table 11-1 does not allow its sender is answered NOT_PERMITTED. -/
theorem request_not_permitted {c : Client} {tag : Byte} {code : Nat} {own : Owner} {s : State}
    (h : Ready c s) (hp : permitted code c = false) :
    request c tag code own s = .next (replied c tag code .notPermitted .none s) := by
  rw [request_refused tag code own h.1 h.2 hp]
  rfl

/-! ### Raises in their order -/

@[simp] theorem raisesOf_nil (n : NoticeState) : raisesOf [] n = n := rfl

theorem raisesOf_append (a b : List Notice) (n : NoticeState) : raisesOf (a ++ b) n = raisesOf b (raisesOf a n) := by
  simp [raisesOf]

@[simp] theorem raisesOf_settings : ∀ (ks : List Notice) (n : NoticeState), (raisesOf ks n).settings = n.settings
  | [], _ => rfl
  | k :: ks, n => (raisesOf_settings ks (raiseNotice k n)).trans (raiseNotice_settings k n)

theorem logWrite_raises (b : LogBody) (s : State) (d : Client) :
    perGet (logWrite b s).notices d = raisesOf (logRaise s.log d) (perGet s.notices d) := by
  unfold logWrite
  rw [perGet_raiseTo]
  unfold logRaise
  split <;> simp [raisesOf]

theorem markFold_notices (c : Client) : ∀ (ms : List Nat) (s : State) (d : Client),
    perGet (ms.foldl (fun s m => raiseTo (· == c) (.mark m) s) s).notices d
      = if d = c then raisesOf (ms.map Notice.mark) (perGet s.notices d) else perGet s.notices d
  | [], s, d => by simp
  | m :: ms, s, d => by
    rw [List.foldl_cons, markFold_notices c ms, perGet_raiseTo]
    by_cases h : d = c
    · simp [h, raisesOf]
    · simp [h]

theorem markFold_queue (c : Client) : ∀ (ms : List Nat) (s : State),
    (ms.foldl (fun s m => raiseTo (· == c) (.mark m) s) s).queue = s.queue
  | [], _ => rfl
  | m :: ms, s => by
    rw [List.foldl_cons, markFold_queue c ms]
    rfl

theorem dropFromMarks_notices (c : Client) (id : Nat) (s : State) (d : Client) :
    perGet (dropFromMarks c id s).notices d
      = if d = c then raisesOf (markRaises id s c) (perGet s.notices d) else perGet s.notices d := by
  unfold dropFromMarks
  rw [markFold_notices]
  rfl

theorem dropFromMarks_marks (c : Client) (id : Nat) (s : State) (d : Client) :
    perGet (dropFromMarks c id s).queue.marks d
      = if d = c then keptMarks id (perGet s.queue.marks d) else perGet s.queue.marks d := by
  unfold dropFromMarks
  rw [markFold_queue]
  by_cases h : d = c
  · subst h
    simp
  · cases c <;> cases d <;> simp_all [perSet, perGet]

theorem dropFromAllMarks_notices (id : Nat) (s : State) (d : Client) :
    perGet (dropFromAllMarks id s).notices d = raisesOf (markRaises id s d) (perGet s.notices d) := by
  unfold dropFromAllMarks
  cases d <;> simp [dropFromMarks_notices, dropFromMarks_marks, markRaises]

theorem dropFromAllMarks_marks (id : Nat) (s : State) (d : Client) :
    perGet (dropFromAllMarks id s).queue.marks d = keptMarks id (perGet s.queue.marks d) := by
  unfold dropFromAllMarks
  cases d <;> simp [dropFromMarks_marks]

/-- What an entry that leaves the queue raises to each client: the LOG raise of its entry, DONE to the clients of `reqs`, and
the MARK raises of the marks it completes (R119, R123, R173). -/
theorem leaveQueue_notices (e : Entry) (out : TestOutcome) (reqs : RequesterSet) (c : Option Client) (s : State)
    (d : Client) :
    perGet (leaveQueue e out reqs c s).notices d
      = raisesOf (logRaise s.log d ++ (if has reqs (bitOf d) then [.done] else []) ++ markRaises e.id s d)
          (perGet s.notices d) := by
  unfold leaveQueue
  rw [dropFromAllMarks_notices, perGet_raiseTo, logWrite_raises, raisesOf_append, raisesOf_append]
  have h : markRaises e.id (raiseTo (fun c => has reqs (bitOf c)) .done
      (logWrite (.testDone e.route e.id e.kind out reqs c) (removeEntry e.id s))) d = markRaises e.id s d := rfl
  rw [h]
  split <;> rfl

theorem leaveQueue_marks (e : Entry) (out : TestOutcome) (reqs : RequesterSet) (c : Option Client) (s : State)
    (d : Client) :
    perGet (leaveQueue e out reqs c s).queue.marks d = keptMarks e.id (perGet s.queue.marks d) := by
  unfold leaveQueue
  rw [dropFromAllMarks_marks]
  rfl

/-! ### Returns and errors -/

theorem returnReservation_returned (s : State) : ReservationReturned s (returnReservation s) := by
  unfold ReservationReturned returnReservation
  cases h : s.store.resv with
  | none => exact ⟨rfl, rfl, h, rfl⟩
  | some r =>
    simp only
    cases r.phase with
    | held => exact ⟨rfl, rfl, rfl, fun b => giveBack_mem r.blocks s.store.free b⟩
    | writing w data => exact ⟨rfl, rfl, h, rfl⟩

/-- The equipment error of a finish: the record, the log entry and the raises (R21). -/
theorem withError_eq (err : Option EquipKind) (r : RouteNo) (s : State) :
    (withError err r s).equip = (match err with
        | none => s.equip
        | some k => some (recordAfter k (some r) s.clock.now s.equip))
      ∧ (withError err r s).log = (err.toList.map fun k => LogBody.equipment k (some r)).foldl
          (fun l b => logAfterWrite s.clock.now b l) s.log
      ∧ ∀ d, perGet (withError err r s).notices d
          = raisesOf (if err.isSome then logRaise s.log d ++ [.equip] else []) (perGet s.notices d) := by
  cases err with
  | none => exact ⟨rfl, rfl, fun d => rfl⟩
  | some k =>
    refine ⟨?_, rfl, fun d => ?_⟩
    · simp only [withError, equipError]
      cases h : s.equip <;> simp [raiseAll, raiseTo, logWrite, recordAfter]
    · simp only [withError, equipError, raiseAll, Option.isSome_some, if_true]
      rw [perGet_raiseTo, if_pos rfl, logWrite_raises, raisesOf_append]
      rfl

/-- What the equipment error of a finish leaves as it is. -/
theorem withError_frame (err : Option EquipKind) (r : RouteNo) (s : State) :
    QueueOnly { s with equip := (withError err r s).equip } (withError err r s)
      ∧ (withError err r s).queue = s.queue := by
  cases err with
  | none => exact ⟨QueueOnly.refl s, rfl⟩
  | some k => exact ⟨by constructor <;> rfl, rfl⟩

end Sys2Proof.Machine
end

