-- ==== Sys2Proof/Tests/Slice0.lean ====
section
/-! SUPPORT. Tests: ill-formed commands refused, the worked figures of the manual, one step of the commands, and for each
statement with hypotheses a concrete state that meets them. -/

namespace Sys2Proof.Tests

open Sys2Proof.Machine

-- One theorem after another: a theorem evaluated by the kernel waits for all before it, each on a thread of its own.
set_option Elab.async false

/-! ### A small card -/

/-- The state a step answers; the reset state where it answers none. -/
def after : Host.Outcome State Fault Refusal → State
  | .next s => s
  | _ => State.reset

def acq3 : AcqSettings := { pulse := 0, spacing := 0, len := 1024, shots := 4, index := 14680 }

/-- The judging settings of Table 3-2. -/
def judging3 : Judging :=
  { dead := 40, width := 4, tLoss := 20, tTotal := 100, tEnd := 8, tReflect := 300, floor := 400, confirm := 2 }

def base3 : Baseline := { blocks := [0], eb := 900, time := Time.zero, acq := 3 }

def body3 (b : Option Baseline) : RouteBody := { label := none, acq := acq3, judging := judging3, baseline := b }

/-- A definition with the settings of `body3`. -/
def def3 : RouteDef :=
  { label := none, pulse := 0, spacing := 0, len := 1024, shots := 4, index := 14680, dead := 40, width := 4, tLoss := 20
    tTotal := 100, tEnd := 8, tReflect := 300, floor := 400, confirm := 2 }

def clear3 : FaultRecord := capturedRecord (some 1) Time.zero 3

/-- A card with route 3 BASELINED, the entries `es` and the engine `e`, the switch at HOME. -/
def card (es : List Entry) (e : Engine) : State :=
  { State.reset with
    switch := .standing .home
    engine := e
    queue := { entries := es, counter := 9, marks := PerClient.const [] }
    store := { free := List.range' 1 1023, bad := [], resv := none, mem := [] }
    routes := State.reset.routes.set 3 { revision := 1, holds := 0, body := some (body3 (some base3)) }
    faults := State.reset.faults.set 3 clear3 }

def idle : Engine := { Engine.waiting with state := .idle, acq := 7 }

/-- The engine in state `st` with the entry 5, of route 3, running as acquisition 8. -/
def busy (st : EngineState) (k : TestKind) (cl : TestClass) : Engine :=
  { Engine.waiting with state := st, acq := 8, running := some { id := 5, route := 3, kind := k, cls := cl, settings := acq3 } }

def waiting (id : Nat) (r : RouteNo) (k : TestKind) (cl : TestClass) (reqs : RequesterSet) : Entry :=
  { id := id, route := r, kind := k, cls := cl, reqs := reqs, running := none }

/-- The entry 5, running, requested by `reqs`. -/
def run5 (k : TestKind) (cl : TestClass) (reqs : RequesterSet) : Entry :=
  { id := 5, route := 3, kind := k, cls := cl, reqs := reqs, running := some 8 }

/-- The status and data of the newest reply owed to a client. -/
def said (c : Client) (s : State) : Option (Status × ReplyData) :=
  ((perGet s.links c).owed.getLast?).map fun r => (r.status, r.data)

/-! ### Ill-formed commands -/

theorem test_wf_queue_requests :
    (Instr.test .scA 0 256 1 1).wellFormed = false ∧ (Instr.test .scA 0 0 256 1).wellFormed = false
      ∧ (Instr.test .scA 0 0 1 256).wellFormed = false ∧ (Instr.test .scA 0 255 255 255).wellFormed = true
      ∧ (Instr.cancel .scA 0 65536).wellFormed = false ∧ (Instr.readQueue .scA 0 256).wellFormed = false := by
  decide

theorem test_wf_route_numbers :
    (Instr.defineRoute .scA 0 256 0 def3).wellFormed = false ∧ (Instr.defineRoute .scA 0 0 65536 def3).wellFormed = false
      ∧ (Instr.deleteRoute .scA 0 256 0).wellFormed = false ∧ (Instr.deleteRoute .scA 0 0 65536).wellFormed = false
      ∧ (Instr.readRoute .scA 0 256).wellFormed = false ∧ (Instr.hold .scA 0 256).wellFormed = false
      ∧ (Instr.release .scA 0 256).wellFormed = false ∧ (Instr.clearHolds .cr 0 256).wellFormed = false := by
  decide

theorem test_wf_definitions :
    [{ def3 with label := some [256] }, { def3 with label := some (List.replicate 256 65) }, { def3 with pulse := 256 },
     { def3 with spacing := 256 }, { def3 with len := 65536 }, { def3 with shots := 256 }, { def3 with index := 65536 },
     { def3 with dead := 65536 }, { def3 with width := 256 }, { def3 with tLoss := 65536 }, { def3 with tTotal := 65536 },
     { def3 with tEnd := 256 }, { def3 with tReflect := 65536 }, { def3 with floor := 65536 },
     { def3 with confirm := 256 }].all (fun d => !d.wellFormed) = true ∧ def3.wellFormed = true := by
  decide +kernel

theorem test_wf_result_requests :
    (Instr.readResult .scA 0 256 none).wellFormed = false ∧ (Instr.readResult .scA 0 0 (some 256)).wellFormed = false
      ∧ (Instr.readTrace .scA 0 65536 0 1).wellFormed = false ∧ (Instr.readTrace .scA 0 0 65536 1).wellFormed = false
      ∧ (Instr.readTrace .scA 0 0 0 256).wellFormed = false ∧ (Instr.readBaseline .scA 0 256 0 1 none).wellFormed = false
      ∧ (Instr.readBaseline .scA 0 0 65536 1 none).wellFormed = false
      ∧ (Instr.readBaseline .scA 0 0 0 256 none).wellFormed = false
      ∧ (Instr.readBaseline .scA 0 0 0 1 (some 65536)).wellFormed = false := by
  decide

def window0 : WindowDef :=
  { enabled := 1, hour := 1, minute := 30, factors := 0b011, weekdays := 0, duration := 120, routes := 0xFFFFFF }

theorem test_wf_time_requests :
    (Instr.setWindow .scA 0 256 window0).wellFormed = false
      ∧ [{ window0 with enabled := 256 }, { window0 with hour := 256 }, { window0 with minute := 256 },
         { window0 with duration := 65536 }].all (fun d => !d.wellFormed) = true
      ∧ window0.wellFormed = true ∧ (Instr.readWindow .scA 0 256).wellFormed = false
      ∧ (Instr.setClock .scA 0 65536 0 0 false).wellFormed = false ∧ (Instr.setClock .scA 0 0 256 0 false).wellFormed = false
      ∧ (Instr.setClock .scA 0 0 0 256 false).wellFormed = false := by
  decide

theorem test_wf_settings :
    [({ faultMode := some 256 } : NoticeParts), { done := some 256 }, { window := some 256 }, { equip := some 256 },
     { log := some 256 }, { clearMode := some 256 }, { lineMode := some 256 }, { polarity := some 256 },
     { pulseLen := some 256 }, { threshold := some 256 }].all (fun p => !(Instr.setNotices .scA 0 p).wellFormed) = true
      ∧ [({ live := some 65536 } : DeviceParts), { timeout := some 256 }, { barred := some (some (256, 0)) },
         { barred := some (some (0, 256)) }].all (fun p => !(Instr.setDevice .scA 0 p).wellFormed) = true := by
  decide

theorem test_wf_shot :
    (Instr.shotComplete 65536 (List.replicate 1024 0)).wellFormed = false ∧ (Instr.shotComplete 0 []).wellFormed = false
      ∧ (Instr.shotComplete 0 (List.replicate 1025 0)).wellFormed = false
      ∧ (Instr.shotComplete 0 (List.replicate 1024 0)).wellFormed = true := by
  decide +kernel

/-! ### The worked figures of the manual -/

/-- Table 2-1. -/
theorem test_averages :
    average 64 64000 = 256000 ∧ average 1024 2 = 1 ∧ average 1024 1 = 0 ∧ average 65536 100000 = 391 := by decide

/-- Table 2-2, the figures below it, R30 and section 2.7.1. -/
theorem test_levels :
    [1, 2, 16, 256, 4096, 65536, 1048576, 8388608, 16646144, 15, 256000, 1000].map levelOf
      = [0, 151, 602, 1204, 1806, 2408, 3010, 3462, 3610, 583, 2702, 1498]
      ∧ levelOf 16646143 = 3608 ∧ levelOf 16776960 = 3610 := by
  decide

/-- Table 2-3. -/
theorem test_pulse_spans :
    ([0, 1, 2, 3, 4, 5].map fun p => [0, 1, 2, 3, 4].map (pulseSpan p))
      = [[8, 4, 2, 1, 1], [24, 12, 6, 3, 2], [80, 40, 20, 10, 5], [240, 120, 60, 30, 15], [800, 400, 200, 100, 50],
         [2400, 1200, 600, 300, 150]] := by
  decide

/-- Table 2-4, R34, R35, sections 2.7 and 3.9. -/
theorem test_distances :
    [0, 1, 2, 3, 4].map (fun s => distance s 14680 32768) = [819200, 1638400, 3276800, 6553600, 13107200]
      ∧ distance 4 14000 32768 = 13743835 ∧ distance 0 15500 1 = 24 ∧ distance 1 14700 5120 = 255652
      ∧ distance 1 14700 5123 = 255801 ∧ distance 1 14700 3000 = 149796 ∧ distance 1 14700 2050 = 102361
      ∧ distance 1 14700 122 = 6092 := by
  decide

/-- Section 2.7.2, with the indices from 5,116 on counted from 0. -/
theorem test_measured_end :
    endFrom 4 400 5116 [1210, 980, 720, 455, 402, 390, 410, 388, 371, 366, 350] = some 5123 := by decide

/-- Section 3.9.1: the differences about index 3,000, and the one loss event found there. -/
theorem test_step_sums :
    stepSums 4 2996 [0, 0, 0, 0, 0, 0, 0, 0, 30, 30, 30, 30, 30, 30, 30, 30]
      = [(2996, 0), (2997, 30), (2998, 60), (2999, 90), (3000, 120), (3001, 90), (3002, 60), (3003, 30), (3004, 0)]
      ∧ (runPeaks 80 none [(2998, 60), (2999, 90), (3000, 120), (3001, 90), (3002, 60)]).map
          (lossEvent { acq3 with spacing := 1, index := 14700 } 4) = [{ index := 3000, distance := 149796, loss := 30 }] := by
  decide

/-- R51 and section 3.9.2: the excess is rounded toward minus infinity. -/
theorem test_excess : excessOf 4 [-15, -750, -340, 520] = -147 ∧ excessOf 4 [124, 125, 125, 125] = 124 := by decide

/-- Section 3.9.2: the peak at the cut end is REFLECTIVE; section 3.9.3: an end at the port is NEAR. -/
theorem test_break_kinds :
    breakKind 0 4 6 300 [1640, 1640, 1655, 2390, 1980, 1120] = .reflective
      ∧ breakKind 0 4 6 751 [1640, 1640, 1655, 2390, 1980, 1120] = .nonReflective
      ∧ breakKind 120 4 122 300 [] = .near := by
  decide

/-- Table 4-3. -/
theorem test_dead_zone_check :
    [{ def3 with len := 8192, pulse := 3, spacing := 1, dead := 40, width := 4 },
     { def3 with len := 1024, pulse := 5, spacing := 0, dead := 0, width := 4 },
     { def3 with len := 1024, pulse := 2, spacing := 2, dead := 1000, width := 40 }].map
      (fun d => deadZone (acqOf d) d.dead + 2 * (judgingOf d).width) = [128, 2408, 1064] := by
  decide

/-- R178: the check of the body 07 13, worked by hand from its bits; and of the nine characters 1 to 9, the check that is
published for this generator and start. -/
theorem test_check :
    frameCheck [2, 0x07, 0x13] = 0x1939 ∧ frameCheck [0x31, 0x32, 0x33, 0x34, 0x35, 0x36, 0x37, 0x38, 0x39] = 0x29B1 := by
  decide +kernel

/-- Table 11-3 and R184: the frames of READ_CLOCK with tag 7, and of a TEST of route 3. -/
theorem test_frames :
    Request.readClock.frame 7 = [0xA5, 2, 7, 0x13, 0x19, 0x39]
      ∧ (Request.test 3 1 1).frame 7 = [0xA5, 5, 7, 1, 3, 1, 1, 0x26, 0x31] := by
  decide +kernel

/-- Table 8-4: window 0 opens at 01:30 on day 14, whose weekday is 0, window 1 does not, and window 5 does not at 01:45. -/
theorem test_opening :
    opensAt { enabled := true, hour := 1, minute := 30, factors := 0b011, weekdays := 0, duration := 120, routes := 0 }
        { day := 14, hour := 1, minute := 30, second := 0 } = true
      ∧ opensAt { enabled := true, hour := 2, minute := 0, factors := 0b111, weekdays := 0b0011111, duration := 60, routes := 0 }
        { day := 14, hour := 1, minute := 30, second := 0 } = false
      ∧ opensAt { enabled := true, hour := 1, minute := 45, factors := 0b111, weekdays := 0b1100000, duration := 30, routes := 0 }
        { day := 14, hour := 1, minute := 45, second := 0 } = false := by
  decide

/-! ### One step of each command -/

/-- R105, R106: the first TEST of an idle card is entry 9 at position 1, and is taken. -/
theorem test_test :
    said .scA (after (exec (.test .scA 7 3 1 1) (card [] idle))) = some (.ok, .test 9 .new 1)
      ∧ (after (exec (.test .scA 7 3 1 1) (card [] idle))).switch = .moving (.port 3)
      ∧ said .scA (after (exec (.test .scA 7 4 1 1) (card [] idle))) = some (.noRoute, .none) := by
  decide +kernel

/-- R102, R107: an URGENT join moves a waiting ROUTINE entry to the front, where it is taken. -/
theorem test_test_join :
    said .scB (after (exec (.test .scB 7 3 1 1)
      (card [waiting 1 4 .check .routine 1, waiting 2 3 .check .routine 1] (busy .committing .capture .urgent))))
      = some (.ok, .test 2 .joined 1) := by
  decide +kernel

/-- R117: CANCEL by one of two requesters keeps the entry, by the last one removes it. -/
theorem test_cancel :
    said .scA (after (exec (.cancel .scA 7 1) (card [waiting 1 3 .check .routine 0b00011] idle)))
        = some (.ok, .cancel 0b00010 .kept)
      ∧ said .scA (after (exec (.cancel .scA 7 1) (card [waiting 1 3 .check .routine 0b00001] idle)))
        = some (.ok, .cancel 0 .removed) := by
  decide +kernel

/-- R122: a MARK waits for its client's entries, and completes at once when there are none. -/
theorem test_mark :
    (after (exec (.mark .scA 7) (card [waiting 1 3 .check .routine 0b00001, waiting 2 3 .capture .routine 0b00010] idle))).queue.marks.scA
        = [{ number := 0, wait := [1] }]
      ∧ (after (exec (.mark .scB 7) (card [waiting 1 3 .check .routine 0b00001] idle))).notices.scB.pending.marks = 1 := by
  decide +kernel

/-- R124: a ROUTINE entry of a route that no window covers is shown NO_WINDOW. -/
theorem test_read_queue :
    said .ls (after (exec (.readQueue .ls 7 1) (card [waiting 1 3 .check .routine 0b00001] idle)))
      = some (.ok, .queue 1 .idle [{ position := 1, id := 1, route := 3, kind := .check, cls := .routine, reqs := 1,
                                     standing := .inr .noWindow }] []) := by
  decide +kernel

/-- R66, R67: Table 4-3, the third case, is refused by the dead zone check, and a clamped width alone is answered OK_CLAMPED. -/
theorem test_define_route :
    said .scA (after (exec (.defineRoute .scA 7 4 0 { def3 with pulse := 2, spacing := 2, dead := 1000, width := 40 })
        (card [] idle))) = some (.badValue, .field 15)
      ∧ said .scA (after (exec (.defineRoute .scA 7 4 0 { def3 with width := 40 }) (card [] idle)))
        = some (.okClamped, .clamped [(8, 32)] 1) := by
  decide +kernel

/-- R74: DELETE_ROUTE gives the baseline's block back. -/
theorem test_delete_route :
    (after (exec (.deleteRoute .scA 7 3 1) (card [] idle))).store.free.head? = some 0
      ∧ said .scA (after (exec (.deleteRoute .scA 7 3 1) (card [] idle))) = some (.ok, .revision 2)
      ∧ said .scA (after (exec (.deleteRoute .scA 7 3 0) (card [] idle))) = some (.stale, .revision 1) := by
  decide +kernel

/-- R76: READ_ROUTE of an UNUSED route. -/
theorem test_read_route :
    said .ls (after (exec (.readRoute .ls 7 4) (card [] idle))) = some (.ok, .route 4 .unused 0 0 false false none) := by
  decide +kernel

/-- R59: READ_RESULT before any test of the route. -/
theorem test_read_result :
    said .ls (after (exec (.readResult .ls 7 3 none) (card [] idle)))
      = some (.ok, .result 0 none { record := clear3, candidate := none, confirm := 2 }) := by
  decide +kernel

/-- Section 2.7.3: the buffer of acquisition 418 read from 8,160 on, and READ_TRACE of an acquisition it does not hold. -/
theorem test_read_trace :
    said .ls (after (exec (.readTrace .ls 7 419 0 64) { card [] idle with
        trace := .held { acq := 418, route := 3, kind := .check, settings := acq3 } 40 900 [] }))
      = some (.stale, .traceStale (some 418))
      ∧ said .ls (after (exec (.readTrace .ls 7 418 0 64) (card [] idle))) = some (.stale, .traceStale none) := by
  decide +kernel

/-- R98: READ_BASELINE with another expected acquisition is STALE; 24 levels are left from offset 1,000 on. -/
theorem test_read_baseline :
    ((said .ls (after (exec (.readBaseline .ls 7 3 0 1 (some 4)) (card [] idle)))).map Prod.fst) = some .stale
      ∧ (match said .ls (after (exec (.readBaseline .ls 7 3 1000 64 none) (card [] idle))) with
        | some (.ok, .baseline _ _ 1000 ls) => ls.length
        | _ => 0) = 24 := by
  decide +kernel

/-- R77 to R79: the hold set after HOLD, RELEASE and CLEAR_HOLDS. -/
theorem test_holds :
    said .scB (after (exec (.hold .scB 7 3) (card [] idle))) = some (.ok, .holds 0b0010)
      ∧ said .scB (after (exec (.release .scB 7 3) (card [] idle))) = some (.notHeld, .holds 0)
      ∧ said .cr (after (exec (.clearHolds .cr 7 3) (card [] idle))) = some (.ok, .none)
      ∧ said .scA (after (exec (.clearHolds .scA 7 3) (card [] idle))) = some (.notPermitted, .none) := by
  decide +kernel

/-- R17, R112: the first HOLD of the route under test stops it, and its entry waits again. -/
theorem test_hold_stops :
    let t := after (exec (.hold .scB 7 3) (card [run5 .check .urgent 1] (busy .firing .check .urgent)))
    t.engine.state = .idle ∧ t.queue.entries = [waiting 5 3 .check .urgent 1] := by
  decide +kernel

/-- R154, section 8.8: a shorter duration cuts the remaining minutes only when they are more. -/
theorem test_set_window :
    let s := { card [] idle with windows := (State.reset.windows.set 1
      { settings := { enabled := true, hour := 2, minute := 0, factors := 0, weekdays := 0, duration := 60, routes := 0 }
        remaining := some 20 }) }
    (after (exec (.setWindow .scA 7 1 { window0 with duration := 30 }) s)).windows[1].remaining = some 20
      ∧ (after (exec (.setWindow .scA 7 1 { window0 with duration := 15 }) s)).windows[1].remaining = some 15
      ∧ ((said .scA (after (exec (.setWindow .scA 7 1 { window0 with duration := 721 }) s))).map Prod.fst) = some .okClamped := by
  decide +kernel

/-- R155: READ_WINDOW of a window never set (R157). -/
theorem test_read_window :
    said .ls (after (exec (.readWindow .ls 7 7) (card [] idle)))
      = some (.ok, .windowRead Window.fresh.settings none Time.zero false 0) := by
  decide +kernel

/-- R141 to R144: the clock is set and started in one request; a running one is not set. -/
theorem test_clock_requests :
    said .cr (after (exec (.setClock .cr 7 14 1 29 true) (card [] idle)))
        = some (.ok, .clockRun { day := 14, hour := 1, minute := 29, second := 0 } true)
      ∧ said .cr (after (exec (.setClock .cr 7 14 1 29 true) { card [] idle with clock := { now := Time.zero, running := true } }))
        = some (.clockRunning, .none)
      ∧ said .cr (after (exec (.startClock .cr 7) (card [] idle))) = some (.ok, .clock Time.zero)
      ∧ said .cr (after (exec (.stopClock .cr 7) (card [] idle))) = some (.ok, .clock Time.zero)
      ∧ said .cr (after (exec (.readClock .cr 7) (card [] idle))) = some (.ok, .clockRead Time.zero 0 false) := by
  decide +kernel

/-- R160: SET_NOTICES refuses a pulse length of 0; R165: with a notice pending, LEVEL asserts the line. -/
theorem test_notice_requests :
    said .scA (after (exec (.setNotices .scA 7 { pulseLen := some 0 }) (card [] idle))) = some (.badValue, .none)
      ∧ (after (exec (.setNotices .scA 7 { log := some 1, threshold := some 1 }) (card [] idle))).notices.scA.asserted = true
      ∧ said .scA (after (exec (.readNotices .scA 7) (card [] idle))) = some (.ok, .pending Pending.none .onAck) := by
  decide +kernel

/-- R163: an acknowledge of one route leaves the other pending. -/
theorem test_ack_notices :
    (after (exec (.ackNotices .scA 7 { routes := 0b01, marks := 0, done := false, window := false, equip := false, log := false })
      { card [] idle with notices := PerClient.const { NoticeState.reset with
          pending := { Pending.none with faults := 0b11 }, asserted := true } })).notices.scA.pending.faults = 0b10 := by
  decide +kernel

/-- R172, R175: the first READ_LOG after a reset gives the RESET entry. -/
theorem test_read_log :
    said .ls (after (exec (.readLog .ls 7) (card [] idle)))
      = some (.ok, .log false [{ number := 0, time := Time.zero, body := .reset .powerOn }] 0 0 0) := by
  decide +kernel

/-- R23, R80: a barred range beyond port 47 is refused whole. -/
theorem test_set_device :
    said .scA (after (exec (.setDevice .scA 7 { live := some 0, barred := some (some (40, 48)) }) (card [] idle)))
        = some (.badValue, .none)
      ∧ (after (exec (.setDevice .scA 7 { barred := some (some (40, 47)) }) (card [] idle))).device
        = { live := 600, timeout := 2, barred := some (40, 47) }
      ∧ said .ls (after (exec (.readDevice .ls 7) (card [] idle))) = some (.ok, .device Device.default none) := by
  decide +kernel

/-- R22: only CR empties the Equipment Record of a FAULTED engine, which then homes the switch. -/
theorem test_equipment :
    said .scA (after (exec (.clearEquipment .scA 7) (card [] { idle with state := .faulted }))) = some (.notPermitted, .none)
      ∧ (after (exec (.clearEquipment .cr 7) { card [] { idle with state := .faulted } with switch := .unknown })).engine.state
        = .recovering
      ∧ said .ls (after (exec (.readEquipment .ls 7) (card [] idle))) = some (.ok, .equipment none .idle 7 (.standing .home)) := by
  decide +kernel

/-- R182: RESET is answered OK, and the craft reset comes when that reply has been sent. -/
theorem test_reset_request :
    let s := after (exec (.resetRequest .cr 7) (card [waiting 1 3 .check .routine 1] { idle with state := .faulted }))
    s.queue.entries.length = 1 ∧ (after (exec (.replySent .cr) s)).queue.entries = []
      ∧ (after (exec (.replySent .cr) s)).log.ring.length = 1 := by
  decide +kernel

/-- R177: a length byte of 251 ends the frame; R176: a framing error does, and so does the gap timer. -/
theorem test_assembly :
    (after (exec (.characterReceived .ls 251) (withRx .ls .length (card [] idle)))).links.ls.rx = .hunt
      ∧ (after (exec (.characterReceived .ls 250) (withRx .ls .length (card [] idle)))).links.ls.rx = .body 250 []
      ∧ (after (exec (.framingError .ls) (withRx .ls .length (card [] idle)))).links.ls.rx = .hunt
      ∧ (after (exec (.gapTimerExpiry .ls) (withRx .ls .length (card [] idle)))).links.ls.rx = .hunt := by
  decide +kernel

/-- R178, R180: the second check byte of the READ_CLOCK frame brings its reply; another byte brings none. -/
theorem test_frame_taken :
    said .ls (after (exec (.characterReceived .ls 0x39) (withRx .ls (.check [7, 0x13] (some 0x19)) (card [] idle))))
        = some (.ok, .clockRead Time.zero 0 false)
      ∧ said .ls (after (exec (.characterReceived .ls 0x38) (withRx .ls (.check [7, 0x13] (some 0x19)) (card [] idle)))) = none := by
  decide +kernel

/-- R175, R181, R183: what the log holds after the resets. -/
theorem test_resets :
    (after (exec .craftReset (card [] idle))).log.ring = [{ number := 0, time := Time.zero, body := .reset .craftReset }]
      ∧ (after (exec .shelfReset (card [] idle))).log.ring = []
      ∧ (after (exec .shelfResetRelease (after (exec .shelfReset (card [] idle))))).log.ring
        = [{ number := 0, time := Time.zero, body := .reset .shelfReset }]
      ∧ (after (exec .powerOn (card [] idle))).switch = .moving .home := by
  decide +kernel

/-- R8, R18: the arrivals. -/
theorem test_arrivals :
    (after (exec (.settled 3) { card [run5 .check .urgent 1] (busy .switching .check .urgent) with switch := .moving (.port 3) })).engine.state
        = .liveCheck
      ∧ (after (exec .homeReached { card [] { Engine.waiting with timer := some (.switch 200) } with
          switch := .moving .home })).engine.state = .idle := by
  decide +kernel

/-- R9, R12, R18: the timers that fail. -/
theorem test_failures :
    (after (exec .switchStuck { card [run5 .check .urgent 1] (busy .switching .check .urgent) with
        switch := .moving (.port 3) })).engine.state = .recovering
      ∧ (after (exec .acqTimeout (card [run5 .check .urgent 1] (busy .firing .check .urgent)))).engine.state = .idle
      ∧ ((after (exec .homeFailed (card [] { Engine.waiting with timer := some (.switch 200) }))).equip.map EquipError.kind)
        = some .homeFailed := by
  decide +kernel

/-- R30: with the threshold of 600 a reading of 15 passes and one of 16 refuses the fibre. -/
theorem test_live_check :
    (after (exec (.liveCheckExpiry 15) (card [run5 .check .urgent 1] (busy .liveCheck .check .urgent)))).engine.state = .firing
      ∧ ((after (exec (.liveCheckExpiry 16) (card [run5 .check .urgent 1]
          (busy .liveCheck .check .urgent)))).records[3].map TestRecord.outcome) = some .liveLight := by
  decide +kernel

/-- R2, R11: a record of another acquisition is discarded, one of the running acquisition restarts the shot timer. -/
theorem test_shot :
    (after (exec (.shotComplete 7 []) (card [run5 .check .urgent 1] (busy .firing .check .urgent)))).engine.shotCount = 0
      ∧ (after (exec (.shotComplete 8 (List.replicate 1024 1000))
          (card [run5 .check .urgent 1] (busy .firing .check .urgent)))).engine.shotCount = 1 := by
  decide +kernel

/-- R53: a CHECK without a baseline ends NO_BASELINE. -/
theorem test_analysis :
    let t := after (exec .analysisComplete (card [run5 .check .urgent 1]
      { busy .analysing .check .urgent with analysis := some { judging := judging3, base := none } }))
    t.engine.state = .idle ∧ (t.records[3].map TestRecord.outcome) = some .noBaseline := by
  decide +kernel

/-- A capture of route 3 writing block 1 of the blocks `bs`. -/
def committing (bs : List Nat) : State :=
  { card [run5 .capture .urgent 1] { busy .committing .capture .urgent with
      held := some { fields := { dzEff := 40, width := 4, em := 500, dEm := 0, satCount := 0, firstSat := none }, time := Time.zero } } with
    store := { free := List.range' 3 1021, bad := [], mem := []
               resv := some { route := 3, acq := 8, blocks := bs, phase := .writing 0 [] } } }

/-- R14, R15, R75, R92: the last good write commits, a failed one spoils its block. -/
theorem test_block_writes :
    (routeStatus (after (exec .blockWriteGood (committing [1]))).routes[3]) = .baselined
      ∧ (after (exec .blockWriteGood (committing [1]))).routes[3].revision = 2
      ∧ (after (exec .blockWriteFailed (committing [1, 2]))).store.bad = [1]
      ∧ (after (exec .blockWriteFailed (committing [1, 2]))).store.free.head? = some 2 := by
  decide +kernel

/-- R19: a laser fault ends an acquisition, and a standing engine is FAULTED. -/
theorem test_laser_fault :
    (after (exec .laserFaultSignal (card [run5 .check .urgent 1] (busy .firing .check .urgent)))).engine.state = .faulted
      ∧ (after (exec .laserFaultSignal (card [] idle))).engine.state = .faulted
      ∧ (after (exec .laserFaultEnds (after (exec .laserFaultSignal (card [] idle))))).front.fault = false := by
  decide +kernel

/-- R16, R110: after an ACQ_TIMEOUT the hand-out takes the entry that waits; after a capture's commit too. -/
theorem test_hand_out_after_a_finish :
    (after (exec .acqTimeout (card [run5 .check .urgent 1, waiting 6 3 .check .urgent 2] (busy .firing .check .urgent)))).engine.acq = 9
      ∧ ((after (exec .blockWriteGood { committing [1] with
          queue := { entries := [run5 .capture .urgent 1, waiting 6 3 .check .urgent 2], counter := 9, marks := PerClient.const [] } })).engine.state
        = .switching) := by
  decide +kernel

/-- R165, R168: the level of a line by its polarity. -/
theorem test_line_level :
    lineHigh NoticeState.reset = true ∧ lineHigh { NoticeState.reset with asserted := true } = false
      ∧ lineHigh { NoticeState.reset with settings := { NoticeSettings.default with polarity := .activeHigh } } = false := by
  decide

/-- R166: the pulse ends. -/
theorem test_pulse :
    (after (exec (.pulseTimerExpiry .scB) { card [] idle with notices := (PerClient.const
      { NoticeState.reset with asserted := true, pulse := some 20 }) })).notices.scB.asserted = false := by
  decide +kernel

/-- The card of section 8.8 at 02:59:59: window 1 with one minute left, window 2 at its hour. -/
def night : State :=
  { card [] { idle with state := .faulted } with
    clock := { now := { day := 14, hour := 2, minute := 59, second := 59 }, running := true }
    windows := (State.reset.windows.set 1
      { settings := { enabled := true, hour := 2, minute := 0, factors := 0b111, weekdays := 0b0011111, duration := 60
                      routes := 0 }
        remaining := some 1 }).set 2
      { settings := { enabled := true, hour := 3, minute := 0, factors := 0b010, weekdays := 0, duration := 10, routes := 0 }
        remaining := none } }

/-- Table 8-4: at 03:00 window 1 closes EXPIRED and window 2 opens, in that order in the log; MINUTE_ROLLOVER and
WINDOW_COUNT_EXPIRY of window 1 are that tick. -/
theorem test_tick :
    (after (exec .tick night)).clock.now = { day := 14, hour := 3, minute := 0, second := 0 }
      ∧ ((after (exec .tick night)).log.ring.map LogEntry.body)
        = [.reset .powerOn, .windowClose 1 .expired, .windowOpen 2]
      ∧ ((after (exec .minuteRollover night)).log.ring.map LogEntry.body)
        = [.reset .powerOn, .windowClose 1 .expired, .windowOpen 2]
      ∧ (after (exec (.windowCountExpiry 1) night)).windows[2].remaining = some 10
      ∧ (after (exec (.windowCountExpiry 2) night)).windows[2].remaining = none := by
  decide +kernel

/-! ### States that meet the hypotheses of the statements -/

/-- A card at work: a ROUTINE capture of route 3 in FIRING with its block reserved, another entry waiting, a window open in its
last minute, a mark open, a notice pending, a candidate held, a reply owed, and a tick to come. -/
def lawful : State :=
  { card [run5 .capture .routine 1, waiting 6 3 .check .routine 2]
      { busy .firing .capture .routine with acc := List.replicate 1024 { sum := 0, sat := false } } with
    front := { laser := true, checking := false, record := none, fault := false }
    store := { free := List.range' 2 1022, bad := [], mem := []
               resv := some { route := 3, acq := 8, blocks := [1], phase := .held } }
    queue := { entries := [run5 .capture .routine 1, waiting 6 3 .check .routine 2], counter := 9
               marks := { PerClient.const [] with scA := [{ number := 3, wait := [5] }] } }
    cands := State.reset.cands.set 3 (some { cond := .broken, agree := 1 })
    clock := { now := { day := 65535, hour := 23, minute := 59, second := 59 }, running := true }
    windows := State.reset.windows.set 0
      { settings := { enabled := true, hour := 31, minute := 63, factors := 0b111, weekdays := 1, duration := 720
                      routes := 0b1000 }
        remaining := some 1 }
    notices := { PerClient.const NoticeState.reset with
      scA := { NoticeState.reset with pending := { Pending.none with done := true }, asserted := true } }
    links := { PerClient.const Link.reset with
      cr := { rx := .body 250 [], service := some { tag := 7, code := 0x13 }, owed := [{ tag := 7, status := .ok, data := .none }] } }
    pending := [.tick] }

theorem witness_laws_step : ∃ t, step lawful = .next t := ⟨_, rfl⟩

theorem witness_time_law : PendingFits lawful ∧ TimeLaw lawful := by
  refine ⟨by unfold PendingFits; decide, by unfold TimeOk; decide, fun w => ?_, (nomatch ·)⟩
  have h : ∀ w : WindowNo, (lawful.windows[w].settings.hour ≤ 31 ∧ lawful.windows[w].settings.minute ≤ 63
      ∧ 1 ≤ lawful.windows[w].settings.duration ∧ lawful.windows[w].settings.duration ≤ 720)
      ∧ (lawful.windows[w].remaining = none ∨ lawful.windows[w].remaining = some 1 ∧ lawful.windows[w].settings.enabled = true) := by
    decide +kernel
  obtain ⟨⟨h1, h2, h3, h4⟩, h5 | ⟨h5, h6⟩⟩ := h w
  · exact ⟨h1, h2, h3, h4, fun n e => by cases h5.symm.trans e⟩
  · exact ⟨h1, h2, h3, h4, fun n e => by cases h5.symm.trans e; exact ⟨h6, le_refl 1, h3⟩⟩

theorem witness_line_law : LineLaw lawful := by
  refine ⟨fun c => ?_, fun c => ?_⟩
  · cases c
    all_goals
      refine ⟨by decide, by decide, ?_, ⟨by decide, rfl⟩⟩
      intro k h
      cases h
  · cases c <;> decide

theorem witness_log_law : LogLaw lawful := by
  refine ⟨by decide, by decide, ?_, fun c => ?_⟩
  · intro i h
    match i, h with
    | 0, _ => rfl
  · cases c <;> decide

theorem witness_link_law : LinkLaw lawful := by
  refine ⟨fun c => ?_, (nomatch ·), (nomatch ·)⟩
  cases c <;> exact ⟨by first | exact True.intro | exact ⟨by decide, by decide, by decide⟩, by decide, by decide⟩

/-- Only route 3 of the small card is defined. -/
theorem card_body {es : List Entry} {e : Engine} {r : RouteNo} {b : RouteBody} (h : (card es e).routes[r].body = some b) :
    r = 3 ∧ b = body3 (some base3) := by
  have k : ∀ r : RouteNo, r = 3 ∨ (card es e).routes[r].body = none := by
    show ∀ r : RouteNo, r = 3 ∨ (State.reset.routes.set 3
      { revision := 1, holds := 0, body := some (body3 (some base3)) })[r].body = none
    decide +kernel
  obtain rfl | n := k r
  · exact ⟨rfl, (Option.some.inj h).symm⟩
  · rw [n] at h; cases h

theorem witness_route_law : RouteLaw lawful := by
  intro r b h
  obtain ⟨rfl, rfl⟩ := card_body (es := []) (e := idle) h
  unfold RouteOk
  and_intros <;> decide

theorem witness_condition_law : ConditionLaw lawful := by
  intro r
  have h1 : ∀ r : RouteNo, (lawful.faults[r].cond = .unknown ↔ routeStatus lawful.routes[r] ≠ .baselined) := by
    decide +kernel
  have h2 : ∀ r : RouteNo, r = 3 ∨ lawful.cands[r] = none := by decide +kernel
  refine ⟨h1 r, fun k h => ?_⟩
  obtain rfl | n := h2 r
  · obtain rfl : { cond := .broken, agree := 1 } = k := Option.some.inj h
    exact ⟨by decide, by decide, by decide, body3 (some base3), rfl, rfl, by decide⟩
  · rw [n] at h; cases h

theorem witness_store_law : StoreLaw lawful := by
  refine ⟨fun r h => ?_, (nomatch ·)⟩
  obtain rfl : _ = r := Option.some.inj h
  exact ⟨by decide, rfl, .inr (.inr (.inl rfl))⟩

theorem witness_block_law : BlockLaw lawful := by
  have h : listedBlocks lawful = [0] := by decide +kernel
  refine ⟨?_, List.pairwise_lt_range'⟩
  rw [h]
  show (List.range' 2 1022 ++ [] ++ [0] ++ [1]).Perm (List.range 1024)
  have k : List.range 1024 = [0, 1] ++ List.range' 2 1022 := by decide +kernel
  rw [k, List.append_nil, List.append_assoc]
  exact List.perm_append_comm

theorem witness_contents_law : ContentsLaw lawful := by
  refine ⟨rfl, nofun, fun r w data h k => ?_, nofun, fun r b x h hx => ?_, fun run h => ?_⟩
  · obtain rfl : _ = r := Option.some.inj h
    cases k
  · obtain ⟨rfl, rfl⟩ := card_body (es := []) (e := idle) h
    obtain rfl : base3 = x := Option.some.inj hx
    rfl
  · obtain rfl : _ = run := Option.some.inj h
    refine ⟨⟨body3 (some base3), rfl, rfl⟩, fun r h => ?_, fun _ => ⟨List.length_replicate, fun c hc => ?_⟩, fun _ => ?_,
      nofun, nofun⟩
    · obtain rfl : _ = r := Option.some.inj h
      rfl
    · rw [List.eq_of_mem_replicate hc]
      exact Nat.zero_le _
    · decide

theorem witness_entry_law : EntryLaw lawful := by unfold EntryLaw; decide +kernel

theorem witness_queue_law : QueueLaw lawful := by unfold QueueLaw; decide +kernel

theorem witness_mark_law : MarkLaw lawful := by intro c; cases c <;> decide +kernel

theorem witness_run_law : RunLaw lawful :=
  ⟨fun _ => ⟨_, run5 .capture .routine 1, rfl, by decide, rfl, rfl, rfl, rfl, rfl⟩, (nomatch ·)⟩

theorem witness_laser_law : LaserLaw lawful := by
  refine ⟨fun _ => ⟨rfl, rfl⟩, fun _ run h => ?_, (nomatch ·)⟩
  obtain rfl : _ = run := Option.some.inj h
  exact ⟨by decide +kernel, fun _ => by decide +kernel⟩

/-- The idle card with an entry that no window covers, and a tick to come. -/
def resting : State := { card [waiting 1 3 .check .routine 1] idle with pending := [.tick] }

/-- The engine is IDLE and an entry waits that is not eligible. -/
theorem witness_idle_law :
    (QueueLaw resting ∧ EntryLaw resting) ∧ RunLaw resting ∧ LaserLaw resting
      ∧ (IdleLaw resting ∧ resting.engine.state = .idle ∧ ∃ t, step resting = .next t) := by
  refine ⟨by unfold QueueLaw EntryLaw; decide +kernel, ⟨nofun, fun _ => ⟨rfl, fun e h => ?_⟩⟩, ⟨nofun, nofun, nofun⟩,
    fun _ e h => ?_, rfl, _, rfl⟩
  · obtain rfl : e = waiting 1 3 .check .routine 1 := List.mem_singleton.mp h
    rfl
  · obtain rfl : e = waiting 1 3 .check .routine 1 := List.mem_singleton.mp h
    decide +kernel

/-! ### The step, the frames and the links -/

theorem witness_StepRunsFrontCommand : lawful.pending = .tick :: [] ∧ State.reset.pending = [] := ⟨rfl, rfl⟩

/-- The branch of the refused record is met. -/
theorem witness_OnlyAWrongRecordIsRefused :
    exec (.shotComplete 8 [0]) (card [run5 .check .urgent 1] (busy .firing .check .urgent)) = .refused .recordLength := rfl

/-- A definition with every field at its largest, of the longest frame that fits 250 bytes. -/
def widest : Request :=
  .defineRoute 255 65535
    { label := some (List.replicate 223 255), pulse := 255, spacing := 255, len := 65535, shots := 255, index := 65535
      dead := 65535, width := 255, tLoss := 65535, tTotal := 65535, tEnd := 255, tReflect := 65535, floor := 65535
      confirm := 255 }

theorem witness_FramesReachTheirRequest :
    widest.wellFormed = true ∧ (widest.body 7).length = 250 ∧ State.reset.shelf = none
      ∧ (perGet State.reset.links .ls).rx = .hunt := by
  decide +kernel

/-- A RESET of CR whose OK reply is being sent. -/
def armed : State := after (exec (.resetRequest .cr 7) (card [] idle))

theorem witness_PowerOnAndCraftReset :
    lawful.shelf = none ∧ armed.shelf = none ∧ armed.craftArmed = true ∧ armed.links.cr.owed ≠ [] := by
  decide +kernel

/-- The card held by the shelf reset line, for a reset of kind `k`. -/
def heldCard (k : ResetKind) : State := { beginReset lawful with shelf := some k }

theorem witness_Held (k : ResetKind) : Held k (heldCard k) := by
  refine ⟨⟨rfl, rfl, rfl, rfl, fun _ => rfl, fun r => ⟨?_, ?_⟩, rfl, rfl, rfl, rfl, rfl⟩, rfl, rfl, rfl, rfl⟩
  · exact Vector.getElem_replicate _
  · exact Vector.getElem_replicate _

theorem witness_ShelfResetAndRelease :
    lawful.shelf = none ∧ (heldCard .shelfReset).shelf = some .shelfReset ∧ Held .shelfReset (heldCard .shelfReset)
      ∧ Held .powerOn (heldCard .powerOn) :=
  ⟨rfl, rfl, witness_Held .shelfReset, witness_Held .powerOn⟩

/-- The command of the second part is one that the hold lets through. -/
theorem witness_HoldStandsStill :
    (heldCard .powerOn).shelf ≠ none ∧ Held .powerOn (heldCard .powerOn)
      ∧ exec (.pulseTimerExpiry .scA) (heldCard .powerOn) = .next (heldCard .powerOn) :=
  ⟨nofun, witness_Held .powerOn, rfl⟩

/-- A link of the idle card in each state of the assembly (R177). -/
def receiving (a : Assembly) : State := withRx .ls a (card [] idle)

theorem witness_AssemblyMoves :
    (∀ a, (receiving a).shelf = none ∧ (perGet (receiving a).links .ls).rx = a
        ∧ (perGet (receiving a).links .ls).service = none)
      ∧ frameCheck (BitVec.ofNat 8 2 :: [7, 0x13]) ≠ 0x19#8 ++ 0x38#8
      ∧ frameCheck (BitVec.ofNat 8 2 :: 7 :: 0x13 :: []) = 0x19#8 ++ 0x39#8
      ∧ frameCheck (BitVec.ofNat 8 2 :: 7 :: 0x1D :: []) = 0xF8#8 ++ 0xF7#8
      ∧ frameCheck (BitVec.ofNat 8 2 :: 7 :: 0 :: []) = 0x3B#8 ++ 0x6B#8
      ∧ parseRequest 0x13 [] = some .readClock
      ∧ frameCheck (BitVec.ofNat 8 3 :: 7 :: 0x1C :: [0]) = 0xDC#8 ++ 0x92#8
      ∧ parseRequest 0x1C [0] = none := by
  refine ⟨fun a => ⟨rfl, rfl, rfl⟩, ?_⟩
  decide +kernel

/-- The link of CR in service, owed its reply and `n` BUSY answers. -/
def inService (n : Nat) : State :=
  withLink .cr
    { rx := .hunt, service := some { tag := 7, code := 0x13 }
      owed := { tag := 7, status := .ok, data := .none } :: List.replicate n { tag := 9, status := .busy, data := .none } }
    (card [] idle)

/-- A frame without its last byte on the link of CR in service: a well-formed request, an unknown code, or parameters that do
not fit; with 3 and with 4 BUSY answers owed (the checks are those of `witness_AssemblyMoves`). -/
theorem witness_AssemblyMoves_inService :
    ∀ n body high, (withRx .cr (.check body (some high)) (inService n)).shelf = none
      ∧ (perGet (withRx .cr (.check body (some high)) (inService n)).links .cr).rx = .check body (some high)
      ∧ (perGet (withRx .cr (.check body (some high)) (inService n)).links .cr).service ≠ none :=
  fun _ _ _ => ⟨rfl, rfl, nofun⟩

/-- R179: an unknown code is owed BUSY while the link is in service, and discarded with 4 of them owed. -/
theorem test_unknown_code_is_busy :
    (after (exec (.characterReceived .cr 0xF7) (withRx .cr (.check [7, 0x1D] (some 0xF8)) (inService 3)))).links.cr.owed.getLast?
        = some { tag := 7, status := .busy, data := .none }
      ∧ after (exec (.characterReceived .cr 0xF7) (withRx .cr (.check [7, 0x1D] (some 0xF8)) (inService 4))) = inService 4 := by
  decide +kernel

theorem witness_LinkServiceAndPrivileges :
    (perGet (card [] idle).links .cr).owed = []
      ∧ (∀ n, (inService n).shelf = none ∧ (perGet (inService n).links .cr).service ≠ none
        ∧ (perGet (inService n).links .cr).owed ≠ [] ∧ (inService n).craftArmed = false)
      ∧ (((perGet (inService 3).links .cr).owed.filter fun x => x.status == .busy).length) = 3
      ∧ (((perGet (inService 4).links .cr).owed.filter fun x => x.status == .busy).length) = 4 :=
  ⟨rfl, fun _ => ⟨rfl, nofun, nofun, rfl⟩, by decide, by decide⟩

theorem ready (c : Client) (es : List Entry) (e : Engine) : Ready c (card es e) := ⟨rfl, by cases c <;> rfl⟩

theorem witness_LinkServiceAndPrivileges_refused :
    Ready .ls (card [] idle) ∧ (Request.hold 3).code ∈ [0x05, 0x06, 0x0B, 0x0C, 0x0E, 0x10, 0x11, 0x12, 0x18, 0x1B]
      ∧ Ready .scA (card [] idle) ∧ Request.reset.code ∈ [0x0D, 0x1C] :=
  ⟨ready .ls [] idle, by decide, ready .scA [] idle, by decide⟩

/-- A record that reached analysis and was judged a break, without an excess. -/
def broken3 : TestRecord :=
  { id := 5, acq := 8, kind := .check, cls := .urgent, time := Time.zero, outcome := .judged, len := 1024
    fields := some { dzEff := 40, width := 4, em := 500, dEm := 0, satCount := 0, firstSat := none }
    judgement := some { cond := .broken, brk := some { kind := .near, distance := 0 }, events := [], more := false
                        longer := false, excess := none } }

/-- The longest data that a frame holds, the ends of the ranges, and the presence bits of a test part. -/
theorem witness_RepliesAreFramed :
    (bytesData (.queue 0 .idle [] (List.replicate 123 (0, 0)))).length = 248 ∧ (255 < 256 ∧ 65535 < 65536 ∧ 16777215 < 16777216)
      ∧ ((-32768 : Int) ≤ -32768 ∧ (32767 : Int) < 32768)
      ∧ ∀ i, (0b111#8).getLsbD i = true ↔
        i = 0 ∧ broken3.fields ≠ none
          ∨ ∃ x, broken3.judgement = some x ∧ (i = 1 ∨ i = 2 ∧ x.brk ≠ none ∨ i = 3 ∧ x.more = true ∨ i = 4 ∧ x.longer = true
              ∨ i = 5 ∧ x.excess ≠ none) := by
  refine ⟨by decide +kernel, by decide, by decide, fun i => ?_⟩
  match i with
  | 0 | 1 | 2 | 3 | 4 | 5 | 6 | 7 => simp [broken3]
  | k + 8 =>
    rw [BitVec.getLsbD_of_ge _ _ (Nat.le_add_left 8 k)]
    simp [broken3]

/-- The presence bits of a fault part with nothing to it, and the two bytes of the highest level, saturated. -/
theorem witness_RepliesAreFramed_parts :
    (∀ i, (0#8).getLsbD i = true ↔
      ∃ q : FaultPart, q = { record := FaultRecord.unknownAt Time.zero, candidate := none, confirm := 2 }
        ∧ (i = 0 ∧ q.record.adopting ≠ none ∨ i = 1 ∧ q.record.adopting.bind Adopting.id ≠ none ∨ i = 2 ∧ q.record.brk ≠ none
          ∨ i = 3 ∧ q.record.events ≠ none ∨ i = 4 ∧ (∃ l, q.record.events = some l ∧ l.more = true)
          ∨ i = 5 ∧ q.record.excess ≠ none ∨ i = 6 ∧ q.candidate ≠ none))
      ∧ 256 * (0x8E#8).toNat + (0x1A#8).toNat = 3610 + 32768 := by
  refine ⟨fun i => ?_, by decide⟩
  simp [FaultRecord.unknownAt]

/-- The register of R178 stepped through a byte, and a set with a member beyond which nothing is added. -/
theorem witness_RepliesAreFramed_check (bs : List Byte) (b : Byte) :
    (∃ reg : Nat → BitVec 16, reg 0 = frameCheck bs
      ∧ ∀ i, i < 8 → reg (i + 1) = (reg i <<< 1) ^^^ (if (reg i).getLsbD 15 = b.getLsbD (7 - i) then 0 else 0x1021))
      ∧ 47 < 48 :=
  ⟨⟨fun i => i.rec (frameCheck bs) fun k r => (r <<< 1) ^^^ (if r.getLsbD 15 = b.getLsbD (7 - k) then 0 else 0x1021), rfl,
    fun _ _ => rfl⟩, by decide⟩

/-! ### Reads -/

/-- The numbers at the edges of the clauses: windows and routes beyond the last, an UNUSED and a defined route, first events
15 and 16. -/
theorem witness_ReadsChangeNothing :
    Ready .ls (card [] idle) ∧ 8 ≤ 8 ∧ 48 ≤ 48 ∧ 15 < 16 ∧ (some 15 : Option Nat).getD 0 ≤ 15
      ∧ (card [] idle).routes[(4 : RouteNo)].body = none
      ∧ (card [] idle).routes[(3 : RouteNo)].body = some (body3 (some base3)) :=
  ⟨ready .ls [] idle, by decide, by decide, by decide, by decide, by decide +kernel, by decide +kernel⟩

theorem witness_ReadQueueShowsTheQueue :
    Ready .ls (card [waiting 1 3 .check .routine 1, run5 .check .urgent 1] (busy .firing .check .urgent))
      ∧ (0 = 0 ∨ 32 < 0) ∧ (33 = 0 ∨ 32 < 33) ∧ 1 ≤ 1 ∧ 32 ≤ 32 :=
  ⟨ready .ls _ _, by decide, by decide, by decide, by decide⟩

/-- The idle card with a trace of 1,024 levels HELD. -/
def traced : State :=
  { card [] idle with
    trace := .held { acq := 7, route := 3, kind := .check, settings := acq3 } 40 900
      (List.replicate 1024 { level := 100, sat := false }) }

/-- A trace that a craft reset has come upon, its block write still in flight. -/
def tracedCut : State := after (exec .craftReset { committing [1, 2] with trace := traced.trace })

/-- R40: the buffer stands until the write has ended, STALE for its own acquisition too. -/
theorem test_trace_after_reset :
    said .ls (after (exec (.readTrace .ls 7 7 0 64) tracedCut)) = some (.stale, .traceStale (some 7))
      ∧ (after (exec .blockWriteGood tracedCut)).trace = .empty
      ∧ (after (exec .blockWriteFailed tracedCut)).trace = .empty := by
  decide +kernel

theorem witness_TracesAndBaselinesAreRead_cut :
    Ready .ls tracedCut ∧ writeInFlight tracedCut = true ∧ tracedCut.engine.state ≠ .committing
      ∧ tracedCut.trace = traced.trace ∧ writeInFlight traced = false := by
  unfold Ready
  decide +kernel

theorem witness_TracesAndBaselinesAreRead :
    Ready .ls traced ∧ (0 = 0 ∨ 64 < 0) ∧ (65 = 0 ∨ 64 < 65) ∧ 1 ≤ 64 ∧ 64 ≤ 64 ∧ (card [] idle).trace = .empty
      ∧ (∃ labels dz em cells, traced.trace = .held labels dz em cells ∧ labels.acq = 7 ∧ labels.acq ≠ 8
        ∧ cells.length ≤ 1024 ∧ 1023 < cells.length)
      ∧ (card [] idle).routes[(4 : RouteNo)].body = none
      ∧ (after (exec (.defineRoute .scA 7 4 0 def3) (card [] idle))).routes[(4 : RouteNo)].body = some (body3 none)
      ∧ (card [] idle).routes[(3 : RouteNo)].body = some (body3 (some base3)) ∧ (some 4 : Option Nat) = some 4
      ∧ 4 ≠ base3.acq ∧ (body3 (some base3)).acq.len ≤ 1024 ∧ 1023 < (body3 (some base3)).acq.len := by
  refine ⟨⟨rfl, rfl⟩, by decide, by decide, by decide, by decide, rfl, ⟨_, _, _, _, rfl, rfl, by decide, ?_, ?_⟩, ?_⟩
  · decide +kernel
  · decide +kernel
  · decide +kernel

/-! ### The Test Queue -/

/-- 32 entries of other routes. -/
def thirtyTwo : List Entry := (List.range 32).map fun i => waiting (i + 1) (Fin.ofNat 48 (i + 4)) .check .routine 1

/-- The card with route 3 held by SC-B. -/
def heldRoute (s : State) : State := { s with routes := s.routes.set 3 { s.routes[(3 : RouteNo)] with holds := 0b0010 } }

/-- The card with the ports 3 to 3 barred. -/
def barredRoute (s : State) : State := { s with device := { s.device with barred := some (3, 3) } }

theorem witness_TestRefusals :
    (48 ≤ 48 ∨ (1 ≠ 1 ∧ 1 ≠ 2) ∨ (1 ≠ 1 ∧ 1 ≠ 2)) ∧ (48 ≤ 0 ∨ (3 ≠ 1 ∧ 3 ≠ 2) ∨ (1 ≠ 1 ∧ 1 ≠ 2))
      ∧ kindOf 1 = some .check ∧ classOf 2 = some .routine
      ∧ (Ready .scA (card [] idle) ∧ (card [] idle).routes[(4 : RouteNo)].body = none)
      ∧ (Ready .scA (heldRoute (card [] idle)) ∧ (heldRoute (card [] idle)).routes[(3 : RouteNo)].body ≠ none
        ∧ (heldRoute (card [] idle)).routes[(3 : RouteNo)].holds ≠ 0)
      ∧ (Ready .scA (barredRoute (card [] idle)) ∧ (barredRoute (card [] idle)).routes[(3 : RouteNo)].holds = 0
        ∧ inBarred (barredRoute (card [] idle)).device.barred 3 = true)
      ∧ Ready .scA (card thirtyTwo idle) ∧ (card thirtyTwo idle).routes[(3 : RouteNo)].body ≠ none
      ∧ (card thirtyTwo idle).routes[(3 : RouteNo)].holds = 0 ∧ inBarred (card thirtyTwo idle).device.barred 3 = false
      ∧ 32 ≤ (card thirtyTwo idle).queue.entries.length
      ∧ ∀ e ∈ (card thirtyTwo idle).queue.entries, isWaiting e = true → ¬(e.route = 3 ∧ e.kind = .check) := by
  unfold Ready
  decide +kernel

/-- 31 entries of other routes, while the engine is in COMMITTING. -/
def waits : State := card (thirtyTwo.take 31) (busy .committing .capture .urgent)

/-- Entries that a TEST of route 3 joins: a ROUTINE one behind an URGENT one of another kind. -/
def joins : State := card [waiting 1 3 .capture .urgent 1, waiting 2 3 .check .routine 1] (busy .committing .capture .urgent)

theorem witness_TestWaits :
    kindOf 1 = some .check ∧ classOf 1 = some .urgent ∧ classOf 2 = some .routine
      ∧ Ready .scB waits ∧ QueueLaw waits ∧ waits.routes[(3 : RouteNo)].body ≠ none ∧ isClosed waits 3 = false
        ∧ (∀ e ∈ waits.queue.entries, isWaiting e = true → ¬(e.route = 3 ∧ e.kind = .check))
        ∧ waits.queue.entries.length = 31 ∧ EngineFixed waits ∧ waits.engine.state ≠ .idle
        ∧ waits.queue.entries = [] ++ waits.queue.entries ∧ waits.queue.entries = waits.queue.entries ++ []
        ∧ ∀ e ∈ waits.queue.entries, e.cls = .routine := by
  unfold Ready QueueLaw EngineFixed
  decide +kernel

theorem witness_TestWaits_join :
    Ready .scB joins ∧ QueueLaw joins ∧ joins.routes[(3 : RouteNo)].body ≠ none ∧ isClosed joins 3 = false
      ∧ joins.queue.entries = [waiting 1 3 .capture .urgent 1] ++ waiting 2 3 .check .routine 1 :: [] ∧ EngineFixed joins
      ∧ [waiting 1 3 .capture .urgent 1] ++ [] = [waiting 1 3 .capture .urgent 1] ++ [] := by
  unfold Ready QueueLaw EngineFixed
  decide +kernel

/-- The first free id from 65535 on, where 65535 and 1 are held, is 2 (R104). -/
theorem test_first_free :
    FirstFree [waiting 1 3 .capture .urgent 1, waiting 65535 3 .check .routine 1] 65535 2 := by
  refine ⟨2, rfl, by decide, fun j h => ?_⟩
  match j, h with
  | 0, _ => exact ⟨_, .tail _ (.head _), rfl⟩
  | 1, _ => exact ⟨_, .head _, rfl⟩

/-- Route 3 under a ROUTINE CHECK in FIRING, with a ROUTINE capture of it waiting. -/
def preempted : State := card [run5 .check .routine 1, waiting 6 3 .capture .routine 1] (busy .firing .check .routine)

theorem preempted_run : RunLaw preempted :=
  ⟨fun _ => ⟨_, run5 .check .routine 1, rfl, by decide, rfl, rfl, rfl, rfl, rfl⟩, nofun⟩

/-- An URGENT CHECK is new beside the running one, its twin; an URGENT capture joins the one that waits. -/
theorem witness_UrgentTestsPreempt :
    Ready .scB preempted ∧ QueueLaw preempted ∧ kindOf 1 = some .check ∧ kindOf 2 = some .capture
      ∧ preempted.routes[(3 : RouteNo)].body = some (body3 (some base3)) ∧ isClosed preempted 3 = false
      ∧ canStop preempted.engine.state = true ∧ run5 .check .routine 1 ∈ preempted.queue.entries
      ∧ isWaiting (run5 .check .routine 1) = false
      ∧ (∀ x ∈ preempted.queue.entries, x.cls = .urgent → isEligible preempted x = false)
      ∧ (∀ x ∈ preempted.queue.entries, isWaiting x = true → ¬(x.route = 3 ∧ x.kind = .check))
      ∧ preempted.queue.entries.length < 32 ∧ preempted.queue.entries = [] ++ preempted.queue.entries
      ∧ (∀ x ∈ preempted.queue.entries, x.cls = .routine)
      ∧ waiting 6 3 .capture .routine 1 ∈ preempted.queue.entries
      ∧ preempted.queue.entries.filter (fun x => x.id != 6) = [] ++ [run5 .check .routine 1] := by
  unfold Ready QueueLaw
  decide +kernel

theorem witness_UrgentTestsPreempt_id : RunLaw preempted ∧ FirstFree preempted.queue.entries preempted.queue.counter 9 :=
  ⟨preempted_run, 0, rfl, by decide, nofun⟩

/-- R113, R114: the URGENT twin absorbs the ROUTINE entry that ran, and is taken. -/
theorem test_preemption :
    let t := after (exec (.test .scB 7 3 1 1) preempted)
    t.queue.entries = [{ waiting 9 3 .check .urgent 3 with running := some 9 }, waiting 6 3 .capture .routine 1]
      ∧ t.engine.state = .switching ∧ said .scB t = some (.ok, .test 9 .new 1) := by
  decide +kernel

/-- R80: a barred range has both its ends. -/
theorem test_barred_ends : [2, 3, 5, 6].map (inBarred (some (3, 5))) = [false, true, true, false] := by decide

theorem witness_ThePortIsGiven :
    QueueLaw lawful ∧ RunLaw lawful ∧ EntryLaw lawful ∧ QueueLaw preempted ∧ RunLaw preempted ∧ EntryLaw preempted :=
  ⟨witness_queue_law, witness_run_law, witness_entry_law, witness_UrgentTestsPreempt.2.1, preempted_run,
    by unfold EntryLaw; decide +kernel⟩

/-- An idle card on which a ROUTINE entry waits for a window. -/
def takes : State := card [waiting 1 3 .check .routine 1] idle

theorem witness_TestTaken :
    Ready .scB takes ∧ QueueLaw takes ∧ kindOf 2 = some .capture ∧ classOf 1 = some .urgent
      ∧ takes.routes[(3 : RouteNo)].body = some (body3 (some base3)) ∧ mayRun takes 3 .urgent = true
      ∧ takes.engine.state = .idle
      ∧ (∀ e ∈ takes.queue.entries, isWaiting e = true ∧ isEligible takes e = false ∧ ¬(e.route = 3 ∧ e.kind = .capture))
      ∧ takes.queue.entries.length < 32 ∧ takes.queue.entries = [] ++ takes.queue.entries
      ∧ (∀ e ∈ takes.queue.entries, e.cls = .routine) ∧ (body3 (some base3)).acq.len / 1024 ≤ takes.store.free.length
      ∧ takes.switch ≠ .standing (.port 3)
      ∧ ({ takes with switch := .standing (.port 3) } : State).switch = .standing (.port 3) := by
  unfold Ready QueueLaw
  decide +kernel

/-- The same card with no block free. -/
def takesShort : State := { takes with store := { takes.store with free := [] } }

theorem witness_CaptureFindsTheStoreFull :
    Ready .scB takesShort ∧ QueueLaw takesShort ∧ classOf 1 = some .urgent
      ∧ takesShort.routes[(3 : RouteNo)].body = some (body3 (some base3)) ∧ mayRun takesShort 3 .urgent = true
      ∧ takesShort.engine.state = .idle
      ∧ (∀ e ∈ takesShort.queue.entries,
        isWaiting e = true ∧ isEligible takesShort e = false ∧ ¬(e.route = 3 ∧ e.kind = .capture))
      ∧ takesShort.queue.entries.length < 32 ∧ takesShort.store.free.length < (body3 (some base3)).acq.len / 1024 := by
  unfold Ready QueueLaw
  decide +kernel

theorem witness_CaptureFindsTheStoreFull_marks : MarkLaw takesShort := by intro c; cases c <;> decide +kernel

/-- The entry 5 running with a second one waiting, in the engine state `st`. -/
def stopping (st : EngineState) : State :=
  card [run5 .check .urgent 0b00001, waiting 6 3 .capture .routine 0b00011] (busy st .check .urgent)

/-- R123: of three marks the id 1 leaves, the two that waited for nothing else complete. -/
theorem test_marks_lose_an_id :
    let ms : List Mark := [{ number := 0, wait := [1] }, { number := 1, wait := [2, 1] }, { number := 3, wait := [1] }]
    ms.Pairwise (fun a b => a.number < b.number) ∧ completedMarks 1 ms = [0, 3]
      ∧ keptMarks 1 ms = [{ number := 1, wait := [2] }] := by
  decide

theorem witness_CancelRules :
    Ready .scA (stopping .firing) ∧ QueueLaw (stopping .firing) ∧ (∀ e ∈ (stopping .firing).queue.entries, e.id ≠ 7)
      ∧ has (run5 .check .urgent 0b00001).reqs (bitOf .scB) = false
      ∧ (has (waiting 6 3 .capture .routine 0b00011).reqs (bitOf .scA) = true
        ∧ del (waiting 6 3 .capture .routine 0b00011).reqs (bitOf .scA) ≠ 0)
      ∧ (has (run5 .check .urgent 0b00001).reqs (bitOf .scA) = true
        ∧ del (run5 .check .urgent 0b00001).reqs (bitOf .scA) = 0)
      ∧ (run5 .check .urgent 0b00001 ∈ (stopping .analysing).queue.entries ∧ canStop (stopping .analysing).engine.state = false)
      ∧ (waiting 1 3 .check .routine 0b00001 ∈ takes.queue.entries ∧ del (waiting 1 3 .check .routine 0b00001).reqs (bitOf .scA) = 0)
      ∧ run5 .check .urgent 0b00001 ∈ (stopping .firing).queue.entries
      ∧ (run5 .check .urgent 0b00001).running = some (stopping .firing).engine.acq
      ∧ canStop (stopping .firing).engine.state = true ∧ NoneEligible (stopping .firing) := by
  unfold Ready QueueLaw NoneEligible
  decide +kernel

/-- SC-A with its marks 0 to `n - 1` open. -/
def marked (n : Nat) : State :=
  { card [waiting 1 3 .check .routine 1] idle with
    queue := { entries := [waiting 1 3 .check .routine 1], counter := 2
               marks := { PerClient.const [] with scA := (List.range n).map fun i => { number := i, wait := [1] } } } }

theorem witness_MarkOpensOrCompletes :
    Ready .scA (marked 4) ∧ 4 ≤ (perGet (marked 4).queue.marks .scA).length
      ∧ Ready .scA (marked 3) ∧ (perGet (marked 3).queue.marks .scA).length < 4
      ∧ (∃ e ∈ (marked 3).queue.entries, has e.reqs (bitOf .scA) = true)
      ∧ (perGet (marked 3).queue.marks .scB).length < 4
      ∧ (∀ e ∈ (marked 3).queue.entries, has e.reqs (bitOf .scB) = false)
      ∧ (perGet (marked 3).queue.marks .scA).Pairwise (fun a b => a.number < b.number) := by
  unfold Ready
  decide +kernel
/-! ### The Route Table -/

theorem witness_DefinitionsAreRefusedOrClamped :
    FieldRefused { def3 with index := 13999 } 6 ∧ ¬FieldRefused { def3 with index := 14000 } 6
      ∧ (8, 32) ∈ clampedFields { def3 with width := 33 } :=
  ⟨.inl (by decide), (by decide : ¬(14000 < 14000 ∨ 15500 < 14000)), by decide⟩

/-- Route 3 under test, and a definition with another group index. -/
def underTest : State := card [run5 .check .urgent 1] (busy .analysing .check .urgent)

theorem witness_DefinitionsAreRefusedOrClamped_request :
    Ready .scA underTest ∧ Client.scA ≠ .ls ∧ 0 ≠ underTest.routes[(3 : RouteNo)].revision
      ∧ refusedField { def3 with pulse := 6 } = some 2
      ∧ (refusedField { def3 with dead := 1017 } = none
        ∧ ({ def3 with dead := 1017 } : RouteDef).len
          < deadZone (acqOf { def3 with dead := 1017 }) 1017 + 2 * (judgingOf { def3 with dead := 1017 }).width)
      ∧ refusedField { def3 with index := 15500, dead := 1016 } = none
      ∧ deadZone (acqOf { def3 with index := 15500 }) 1016 + 2 * (judgingOf { def3 with index := 15500 }).width ≤ 1024
      ∧ underTest.routes[(3 : RouteNo)].body = some (body3 (some base3))
      ∧ (body3 (some base3)).acq ≠ acqOf { def3 with index := 15500 }
      ∧ ∃ e ∈ underTest.queue.entries, isWaiting e = false ∧ e.route = 3 := by
  unfold Ready
  decide +kernel

theorem witness_DefineRouteAccepted :
    Ready .scA (card [] idle) ∧ Client.scA ≠ .ls ∧ refusedField def3 = none
      ∧ deadZone (acqOf def3) def3.dead + 2 * (judgingOf def3).width ≤ def3.len
      ∧ ¬(∃ e ∈ (card [] idle).queue.entries, isWaiting e = false ∧ e.route = 3)
      ∧ clampedFields def3 = [] ∧ clampedFields { def3 with width := 33 } ≠ []
      ∧ (card [] idle).routes[(4 : RouteNo)].body = none
      ∧ (card [] idle).routes[(3 : RouteNo)].body = some (body3 (some base3))
      ∧ (body3 (some base3)).acq = acqOf def3 ∧ (body3 (some base3)).baseline = some base3
      ∧ (body3 (some base3)).acq ≠ acqOf { def3 with index := 14000 } ∧ refusedField { def3 with index := 14000 } = none := by
  unfold Ready
  decide +kernel

theorem witness_DeleteRouteRules :
    Ready .scA (stopping .firing) ∧ Client.scA ≠ .ls ∧ 48 ≤ 48 ∧ (stopping .firing).routes[(4 : RouteNo)].body = none
      ∧ (stopping .firing).routes[(3 : RouteNo)].body = some (body3 (some base3))
      ∧ 0 ≠ (stopping .firing).routes[(3 : RouteNo)].revision
      ∧ (∃ e ∈ (stopping .firing).queue.entries, isWaiting e = false ∧ e.route = 3)
      ∧ Ready .scA takes ∧ QueueLaw takes ∧ takes.routes[(3 : RouteNo)].body = some (body3 (some base3))
      ∧ ∀ e ∈ takes.queue.entries, e.route = 3 → isWaiting e = true := by
  unfold Ready QueueLaw
  decide +kernel

theorem witness_HoldRequests :
    Ready .cr underTest ∧ Client.cr ≠ .ls ∧ 48 ≤ 48 ∧ EngineFixed underTest
      ∧ (underTest.routes[(3 : RouteNo)].holds = 0 ∧ has (0 : HoldSet) (bitOf .cr) = false)
      ∧ (heldRoute underTest).routes[(3 : RouteNo)].holds = 0b0010 ∧ (0b0010 : HoldSet) ≠ 0
      ∧ has (0b0010 : HoldSet) (bitOf .scB) = true ∧ del (0b0010 : HoldSet) (bitOf .scB) = 0 ∧ Ready .scB (heldRoute underTest)
      ∧ has (0b0010 : HoldSet) (bitOf .cr) = false ∧ EngineFixed (heldRoute underTest)
      ∧ add (0 : HoldSet) (bitOf .cr) ≠ 0 := by
  unfold Ready EngineFixed
  decide +kernel

/-- Route 3 under a ROUTINE test, with its twin, URGENT, waiting before it. -/
def twins : State :=
  { card [waiting 6 3 .check .urgent 2, run5 .check .routine 1] (busy .firing .check .routine) with
    queue := { entries := [waiting 6 3 .check .urgent 2, run5 .check .routine 1], counter := 9
               marks := { PerClient.const [] with scA := [{ number := 0, wait := [5] }] } } }

theorem witness_HoldStopsTheRunningTest :
    Ready .scB twins ∧ Client.scB ≠ .ls ∧ QueueLaw twins ∧ twins.routes[(3 : RouteNo)].holds = 0
      ∧ inBarred twins.device.barred 3 = false ∧ canStop twins.engine.state = true
      ∧ run5 .check .routine 1 ∈ twins.queue.entries ∧ isWaiting (run5 .check .routine 1) = false
      ∧ (∀ x ∈ twins.queue.entries, x.route ≠ 3 → isEligible twins x = false)
      ∧ twins.queue.entries = [] ++ waiting 6 3 .check .urgent 2 :: [] ++ run5 .check .routine 1 :: [] := by
  unfold Ready QueueLaw
  decide +kernel

theorem witness_HoldStopsTheRunningTest_alone :
    Ready .scB (stopping .firing) ∧ QueueLaw (stopping .firing)
      ∧ (∀ x ∈ (stopping .firing).queue.entries, isWaiting x = true → ¬(x.route = 3 ∧ x.kind = .check))
      ∧ ∀ x ∈ (stopping .firing).queue.entries, x.route ≠ 3 → isEligible (stopping .firing) x = false := by
  unfold Ready QueueLaw
  decide +kernel

theorem witness_HoldStopsTheRunningTest_run : RunLaw twins ∧ RunLaw (stopping .firing) :=
  ⟨⟨fun _ => ⟨_, run5 .check .routine 1, rfl, by decide, rfl, rfl, rfl, rfl, rfl⟩, nofun⟩,
    ⟨fun _ => ⟨_, run5 .check .urgent 1, rfl, by decide, rfl, rfl, rfl, rfl, rfl⟩, nofun⟩⟩

/-- The queue and the marks that the two forms give for `twins`: the earlier entry absorbs the later one. -/
theorem witness_HoldStopsTheRunningTest_merge (entries : List Entry) (marks : PerClient (List Mark))
    (h : entries = [{ waiting 6 3 .check .urgent 3 with reqs := 2 ||| 1 }])
    (h' : marks = { PerClient.const [] with scA := [{ number := 0, wait := [6] }] }) :
    ((∀ x ∈ twins.queue.entries, isWaiting x = true → ¬(x.route = 3 ∧ x.kind = .check)) →
        entries = (twins.queue.entries.map fun x => if x.id = 5 then { run5 .check .routine 1 with running := none } else x)
          ∧ marks = twins.queue.marks)
      ∧ ∀ pre a mid b post, twins.queue.entries = pre ++ a :: mid ++ b :: post →
        (a = run5 .check .routine 1 ∧ isWaiting b = true ∨ b = run5 .check .routine 1 ∧ isWaiting a = true) →
        a.route = b.route → a.kind = b.kind →
        entries = pre ++ { id := a.id, route := 3, kind := .check, cls := if b.cls = .urgent then .urgent else a.cls
                           reqs := a.reqs ||| b.reqs, running := none } :: mid ++ post
          ∧ marks = perGen fun k => (perGet twins.queue.marks k).map fun m =>
              { m with wait := if m.wait.contains a.id then m.wait.filter (· != b.id)
                               else m.wait.map fun i => if i = b.id then a.id else i } := by
  refine ⟨fun k => absurd (k (waiting 6 3 .check .urgent 2) (by decide) rfl) (by decide), ?_⟩
  intro pre a mid b post e _ _ _
  have n := congrArg List.length e
  rcases pre with _ | ⟨p, pre⟩
  · rcases mid with _ | ⟨m, mid⟩
    · simp only [List.nil_append, List.cons_append, List.cons.injEq, twins] at e
      obtain ⟨rfl, rfl, rfl⟩ := e
      exact ⟨h, h'⟩
    · simp [twins] at n
  · simp [twins] at n
    omega

/-! ### The Timekeeping Unit -/

theorem witness_SetWindowRules :
    Ready .scA night ∧ Client.scA ≠ .ls ∧ 8 ≤ 8 ∧ 1 < 2 ∧ 31 < 32 ∧ 63 < 64 ∧ ({ window0 with duration := 0 } : WindowDef).duration = 0
      ∧ window0.enabled = 1 ∧ window0.hour ≤ 31 ∧ window0.minute ≤ 63 ∧ 1 ≤ window0.duration
      ∧ 720 < ({ window0 with duration := 721 } : WindowDef).duration
      ∧ night.windows[(2 : WindowNo)].remaining = none ∧ night.windows[(1 : WindowNo)].remaining = some 1 ∧ EngineFixed night
      ∧ ({ window0 with enabled := 0 } : WindowDef).enabled = 0
      ∧ night.windows[(1 : WindowNo)].settings.routes ≠ window0.routes := by
  unfold Ready EngineFixed
  decide +kernel

theorem witness_ClockRequests :
    Ready .scA night ∧ Client.scA ≠ .ls ∧ 23 < 24 ∧ 59 < 60 ∧ 23 ≤ 23 ∧ 59 ≤ 59 ∧ night.clock.running = true ∧ EngineFixed night
      ∧ Ready .scA (card [] idle) ∧ (card [] idle).clock.running = false
      ∧ night.windows[(1 : WindowNo)].remaining ≠ none := by
  unfold Ready EngineFixed
  decide +kernel

/-! ### The Notice Unit and the Result Log -/

/-- One client's notices in PULSE mode with FAULT mode RAISE, a DONE notice pending. -/
def pulsing : NoticeState :=
  { settings := { NoticeSettings.default with faultMode := .raise, lineMode := .pulse, clearMode := .onRead, pulseLen := 255 }
    pending := { Pending.none with done := true }, asserted := true, pulse := some 20 }

theorem witness_RaisesAreTaken :
    takesRaise pulsing.settings (.fault 47 false) = false ∧ takesRaise pulsing.settings (.fault 47 true) = true
      ∧ kindPending pulsing.pending (.fault 47 true) = false ∧ kindPending pulsing.pending .done = true
      ∧ pulsing.settings.lineMode = .pulse ∧ takesRaise NoticeState.reset.settings .done = true
      ∧ NoticeState.reset.settings.lineMode = .level ∧ 3 < 4
      ∧ State.reset.log.next < 65536 ∧ State.reset.log.ring.length ≤ 256
      ∧ unreadCount State.reset.log (perGet State.reset.log.readers .scA) ≤ State.reset.log.ring.length
      ∧ (perGet State.reset.log.readers .scA).cursor < 65536 ∧ (perGet State.reset.log.readers .scA).threshold ≤ 255 := by
  decide +kernel

theorem witness_SetNoticesRules :
    Ready .scA (card [] idle) ∧ NoticeRefused { pulseLen := some 0 } ∧ NoticeRefused { faultMode := some 5 }
      ∧ NoticeRefused { done := some 2 } ∧ NoticeRefused { polarity := some 3 }
      ∧ ¬NoticeRefused { lineMode := some 2, pulseLen := some 255, threshold := some 1 }
      ∧ NoticeState.reset.settings.lineMode = .level
      ∧ (carried { lineMode := some 2 } NoticeState.reset.settings).lineMode = .pulse
      ∧ pulsing.settings.lineMode = .pulse ∧ (carried { lineMode := some 1 } pulsing.settings).lineMode = .level := by
  refine ⟨ready .scA [] idle, .inr (.inr (.inr ⟨0, .inl rfl, by decide⟩)), .inl ⟨5, rfl, by decide⟩,
    .inr (.inl ⟨2, .inl rfl, by decide⟩), .inr (.inr (.inl ⟨3, .inr (.inr rfl), by decide⟩)), ?_, rfl, rfl, rfl, rfl⟩
  simp [NoticeRefused]

/-- The idle card with every client's notices as `pulsing`. -/
def noticed : State := { card [] idle with notices := PerClient.const pulsing }

theorem witness_NoticesAreReadAndAcknowledged :
    Ready .scA noticed ∧ (perGet noticed.notices .scA).settings.clearMode = .onRead ∧ (perGet noticed.notices .scA).pulse ≠ none
      ∧ Ready .scA (card [] idle) ∧ (perGet (card [] idle).notices .scA).settings.clearMode = .onAck
      ∧ (perGet (card [] idle).notices .scA).pulse = none := by
  unfold Ready
  decide +kernel

/-- A full ring, whose oldest entry is the number `n`. -/
def fullLog (n : Nat) : ResultLog :=
  { ring := (List.range 256).map fun i => { number := (n + i) % 65536, time := Time.zero, body := .windowOpen 0 }
    next := (n + 256) % 65536, readers := PerClient.const LogReader.reset }

theorem witness_TheLogIsWrittenAndRead :
    State.reset.log.ring.length < 256 ∧ (fullLog 0).ring.length = 256
      ∧ (fullLog 0).next < 65536 ∧ (perGet (fullLog 0).readers .scA).cursor < 65536
      ∧ (perGet (fullLog 0).readers .scA).cursor = ((fullLog 0).next + 65280) % 65536 ∧ Ready .ls lawful ∧ LogLaw lawful :=
  ⟨by decide, by decide +kernel, by decide, by decide, by decide, ⟨rfl, rfl⟩, witness_log_law⟩

/-! ### The device requests -/

/-- A FAULTED card with a block write of an earlier capture in flight. -/
def faultedWriting : State := { committing [1] with engine := { idle with state := .faulted } }

theorem witness_DeviceRequests :
    Ready .scA night ∧ Client.scA ≠ .ls ∧ EngineFixed night ∧ night.engine.state = .faulted
      ∧ (card [] idle).engine.state ≠ .faulted ∧ writeInFlight faultedWriting = true ∧ faultedWriting.engine.state = .faulted
      ∧ Ready .cr faultedWriting ∧ writeInFlight night = false ∧ night.switch = .standing .home ∧ NoneEligible night
      ∧ ({ night with switch := .unknown } : State).switch ≠ .standing .home
      ∧ (some (some (47, 47)) : Option (Option (Nat × Nat))).getD night.device.barred ≠ night.device.barred := by
  unfold Ready EngineFixed NoneEligible
  decide +kernel

theorem witness_DeviceRequests_parts :
    DeviceRefused { live := some 3611 } ∧ DeviceRefused { timeout := some 5 } ∧ DeviceRefused { barred := some (some (0, 48)) }
      ∧ DeviceRefused { barred := some (some (2, 1)) }
      ∧ ¬DeviceRefused { live := some 3610, timeout := some 4, barred := some (some (47, 47)) } := by
  refine ⟨.inl ⟨3611, rfl, by decide⟩, .inr (.inl ⟨5, rfl, by decide⟩), .inr (.inr ⟨0, 48, rfl, by decide⟩),
    .inr (.inr ⟨2, 1, rfl, by decide⟩), ?_⟩
  simp [DeviceRefused]

/-! ### The optical path -/

/-- The switch on its way to port 3 for the entry 5. -/
def moving : State := { card [run5 .check .urgent 1] (busy .switching .check .urgent) with switch := .moving (.port 3) }

/-- The engine homing the switch, with the entries `es` waiting. -/
def homing (es : List Entry) : State :=
  { card es { Engine.waiting with timer := some (.switch 200) } with switch := .moving .home }

theorem witness_ArrivalsOfTheSwitch :
    moving.switch ≠ .moving (.port 4) ∧ moving.switch = .moving (.port 3) ∧ moving.engine.state = .switching
      ∧ moving.engine.running.map Running.route = some 3
      ∧ ({ moving with engine := { moving.engine with state := .firing } } : State).engine.state ≠ .switching
      ∧ moving.switch ≠ .moving .home ∧ (homing []).switch = .moving .home ∧ (homing []).engine.state = .recovering
      ∧ (homing []).engine.timer ≠ none ∧ NoneEligible (homing [])
      ∧ ({ homing [] with engine := Engine.waiting } : State).engine.timer = none
      ∧ (homing [waiting 1 3 .check .urgent 1]).queue.entries = [] ++ waiting 1 3 .check .urgent 1 :: []
      ∧ isEligible (homing [waiting 1 3 .check .urgent 1]) (waiting 1 3 .check .urgent 1) = true
      ∧ (homing [waiting 1 3 .check .urgent 1]).routes[(3 : RouteNo)].body = some (body3 (some base3))
      ∧ isEligible (homing [waiting 1 3 .capture .urgent 1]) (waiting 1 3 .capture .urgent 1) = true := by
  unfold NoneEligible
  decide +kernel

/-- The entry 5 of route 3, a CHECK, run alone in the engine state `st`. -/
def alone (st : EngineState) : State := card [run5 .check .urgent 1] (busy st .check .urgent)

theorem alone_queue (st : EngineState) : QueueLaw (alone st) := by
  show QueueLaw (card [run5 .check .urgent 1] idle)
  unfold QueueLaw
  decide +kernel

theorem alone_run (st : EngineState) (h : busyState st = true) : RunLaw (alone st) :=
  ⟨fun _ => ⟨_, run5 .check .urgent 1, rfl, rfl, rfl, rfl, rfl, rfl, rfl⟩, fun k => by cases h.symm.trans k⟩

theorem alone_none (st : EngineState) : NoneEligible (alone st) := by
  intro e h
  obtain rfl : e = run5 .check .urgent 1 := List.mem_singleton.mp h
  rfl

theorem witness_TimersThatFail :
    (alone .firing).engine.state ≠ .switching ∧ (alone .switching).engine.state ≠ .firing
      ∧ (alone .firing).engine.state ≠ .recovering ∧ (homing []).engine.state = .recovering ∧ (homing []).engine.timer ≠ none
      ∧ (QueueLaw moving ∧ RunLaw moving ∧ moving.engine.state = .switching ∧ moving.switch ≠ .standing .home
        ∧ ∃ run, moving.engine.running = some run)
      ∧ QueueLaw (alone .firing) ∧ RunLaw (alone .firing) ∧ (alone .firing).engine.state = .firing ∧ NoneEligible (alone .firing)
      ∧ ∃ run, (alone .firing).engine.running = some run :=
  ⟨nofun, nofun, nofun, rfl, nofun, ⟨alone_queue .switching, alone_run .switching rfl, rfl, nofun, _, rfl⟩, alone_queue _,
    alone_run _ rfl, rfl, alone_none _, _, rfl⟩

theorem witness_LiveCheckIsJudged :
    (alone .firing).engine.state ≠ .liveCheck ∧ (alone .liveCheck).engine.state = .liveCheck
      ∧ (∃ run, (alone .liveCheck).engine.running = some run) ∧ levelOf 15 ≤ (alone .liveCheck).device.live
      ∧ (alone .liveCheck).device.live < levelOf 16 ∧ (alone .liveCheck).front.fault = false
      ∧ ({ alone .liveCheck with front := { (alone .liveCheck).front with fault := true } } : State).front.fault = true
      ∧ (alone .liveCheck).shelf = none ∧ QueueLaw (alone .liveCheck) ∧ RunLaw (alone .liveCheck)
      ∧ NoneEligible (alone .liveCheck) :=
  ⟨nofun, rfl, ⟨_, rfl⟩, by decide, by decide, rfl, rfl, rfl, alone_queue _, alone_run _ rfl, alone_none _⟩

theorem witness_ShotsAreGathered :
    (alone .analysing).engine.state ≠ .firing ∧ (alone .firing).engine.acq ≠ 7 ∧ (alone .firing).engine.state = .firing
      ∧ (alone .firing).engine.acq = 8
      ∧ (alone .firing).engine.running = some { id := 5, route := 3, kind := .check, cls := .urgent, settings := acq3 }
      ∧ ([0] : List Sample).length ≠ acq3.len ∧ (List.replicate 1024 (0 : Sample)).length = acq3.len
      ∧ (alone .firing).engine.shotCount + 1 < 2 ^ acq3.shots
      ∧ 2 ^ acq3.shots ≤ ({ (alone .firing).engine with shotCount := 15 } : Engine).shotCount + 1
      ∧ (alone .firing).routes[(3 : RouteNo)].body = some (body3 (some base3)) := by
  decide +kernel

/-- The entry 5 in ANALYSING with what its analysis copied. -/
def analysed (k : TestKind) (b : Option BaseRef) (acc : List AccCell) : State :=
  card [run5 k .urgent 1] { busy .analysing k .urgent with analysis := some { judging := judging3, base := b }, acc := acc }

theorem analysed_laws (k : TestKind) (b : Option BaseRef) (acc : List AccCell) :
    QueueLaw (analysed k b acc) ∧ RunLaw (analysed k b acc) ∧ NoneEligible (analysed k b acc) := by
  refine ⟨?_, ⟨fun _ => ⟨_, run5 k .urgent 1, rfl, rfl, rfl, rfl, rfl, rfl, rfl⟩, nofun⟩, fun e h => ?_⟩
  · show QueueLaw (card [run5 k .urgent 1] idle)
    unfold QueueLaw
    cases k <;> decide +kernel
  · obtain rfl : e = run5 k .urgent 1 := List.mem_singleton.mp h
    rfl

/-- A CHECK without a baseline; a CHECK judged CLEAR as its route stands; a capture whose trace is all floor; one whose trace
never falls to the floor. -/
theorem witness_AnalysesEnd :
    (alone .firing).engine.state ≠ .analysing
      ∧ (QueueLaw (analysed .check none []) ∧ RunLaw (analysed .check none []) ∧ NoneEligible (analysed .check none []))
      ∧ (analysed .check (some { blocks := [], eb := 0, acq := 3 }) []).engine.analysis
        = some { judging := judging3, base := some { blocks := [], eb := 0, acq := 3 } }
      ∧ (analysed .check none []).engine.state = .analysing
      ∧ (judge acq3 judging3 40 0 [] [] 0).cond = (analysed .check (some { blocks := [], eb := 0, acq := 3 }) []).faults[(3 : RouteNo)].cond
      ∧ (analysed .check none []).routes[(3 : RouteNo)].body = some (body3 (some base3)) ∧ base3 ≠ { base3 with eb := 1 }
      ∧ (analysisFields acq3 judging3 (traceCells 16 [])).em < (analysisFields acq3 judging3 (traceCells 16 [])).dzEff + 2 * 4
      ∧ (analysisFields acq3 judging3 (traceCells 16 (List.replicate 1024 { sum := 65535, sat := false }))).dzEff + 2 * 4
        ≤ (analysisFields acq3 judging3 (traceCells 16 (List.replicate 1024 { sum := 65535, sat := false }))).em :=
  ⟨nofun, analysed_laws _ _ _, rfl, rfl, by decide +kernel, by decide +kernel, by decide, by decide +kernel, by decide +kernel⟩

theorem committing_laws (bs : List Nat) :
    QueueLaw (committing bs) ∧ RunLaw (committing bs) ∧ NoneEligible (committing bs) := by
  refine ⟨?_, ⟨fun _ => ⟨_, run5 .capture .urgent 1, rfl, rfl, rfl, rfl, rfl, rfl, rfl⟩, nofun⟩, fun e h => ?_⟩
  · show QueueLaw (card [run5 .capture .urgent 1] idle)
    unfold QueueLaw
    decide +kernel
  · obtain rfl : e = run5 .capture .urgent 1 := List.mem_singleton.mp h
    rfl

theorem witness_BlockWritesInCommitting :
    (∀ bs, ∃ r run h, (committing (1 :: bs)).store.resv = some r ∧ r.phase = .writing 0 [] ∧ r.blocks[0]? = some 1
        ∧ (committing (1 :: bs)).engine.state = .committing ∧ (committing (1 :: bs)).engine.running = some run
        ∧ (committing (1 :: bs)).engine.held = some h ∧ r.blocks.length = bs.length + 1)
      ∧ (∀ bs, QueueLaw (committing bs) ∧ RunLaw (committing bs) ∧ NoneEligible (committing bs))
      ∧ (committing [1]).routes[(3 : RouteNo)].body = some (body3 (some base3)) :=
  ⟨fun _ => ⟨_, _, _, rfl, rfl, rfl, rfl, rfl, rfl, rfl⟩, committing_laws, by decide +kernel⟩

/-- A block write that a reset cut off, while the engine waits for it. -/
def cutOff : State := after (exec .craftReset (committing [1, 2]))

theorem witness_BlockWritesAfterAReset :
    writeInFlight (card [] idle) = false
      ∧ cutOff.store.resv = some { route := 3, acq := 8, blocks := [1, 2], phase := .writing 0 [] }
      ∧ ([1, 2] : List Nat)[0]? = some 1 ∧ cutOff.engine.state ≠ .committing ∧ cutOff.shelf = none
      ∧ cutOff.engine.state = .recovering ∧ ({ cutOff with switch := .unknown } : State).switch ≠ .standing .home
      ∧ (after (exec .shelfReset (committing [1, 2]))).shelf ≠ none
      ∧ faultedWriting.engine.state ≠ .recovering ∧ faultedWriting.store.resv ≠ none := by
  decide +kernel

/-- R97, R99: a reservation NONE, WRITING and HELD; a block that is being written and one that is not, with the line active. -/
theorem witness_reservations :
    (card [] idle).store.resv = none
      ∧ poolSummary cutOff
        = { free := cutOff.store.free.length, bad := 0, resvSize := 2, resv := some (3, some 0) }
      ∧ (∃ r, ({ cutOff.store with resv := some { route := 3, acq := 8, blocks := [1, 2], phase := .held } } : Store).resv = some r
        ∧ r.phase = .held)
      ∧ BeingWritten 1 cutOff ∧ ¬BeingWritten 2 { cutOff with shelf := some .shelfReset } := by
  refine ⟨rfl, by decide +kernel, ⟨_, rfl, rfl⟩,
    ⟨{ route := 3, acq := 8, blocks := [1, 2], phase := .writing 0 [] }, 0, [], by decide +kernel, rfl, rfl⟩, ?_⟩
  rintro ⟨r, w, data, h, hp, hb⟩
  have e : ({ cutOff with shelf := some .shelfReset } : State).store.resv
      = some { route := 3, acq := 8, blocks := [1, 2], phase := .writing 0 [] } := by decide +kernel
  obtain rfl := Option.some.inj (e.symm.trans h)
  obtain ⟨rfl, rfl⟩ := ReservePhase.writing.inj hp
  exact absurd hb (by decide)

theorem witness_LaserFaults :
    (heldCard .shelfReset).shelf ≠ none ∧ (alone .firing).shelf = none ∧ QueueLaw (alone .firing) ∧ RunLaw (alone .firing)
      ∧ (∃ run, (alone .firing).engine.running = some run) ∧ canStop (alone .firing).engine.state = true
      ∧ ((alone .analysing).engine.state = .analysing ∧ canStop (alone .analysing).engine.state = false)
      ∧ ((card [] idle).engine.state = .idle ∧ canStop (card [] idle).engine.state = false) :=
  ⟨nofun, rfl, alone_queue _, alone_run _ rfl, ⟨_, rfl⟩, rfl, ⟨rfl, rfl⟩, rfl, rfl⟩

/-! ### The clock and the windows -/

theorem witness_TicksOfTheClock :
    (card [] idle).clock.running = false ∧ night.clock.running = true ∧ night.clock.now.second = 59
      ∧ night.clock.now.minute = 59 ∧ night.clock.now.hour < 23 ∧ lawful.clock.now.hour = 23
      ∧ (lawful.clock.now.day + 1) % 65536 = 0 ∧ night.shelf = none ∧ EngineFixed night
      ∧ night.windows[(1 : WindowNo)].settings.enabled = true ∧ night.windows[(1 : WindowNo)].remaining = some 1
      ∧ night.windows[(2 : WindowNo)].remaining ≠ some 1 ∧ (heldCard .shelfReset).shelf ≠ none
      ∧ (heldCard .shelfReset).clock.running = true ∧ (heldCard .shelfReset).clock.now.second = 59
      ∧ ({ night with clock := { night.clock with now := { night.clock.now with second := 58 } } } : State).clock.now.second < 59
      ∧ (∀ (t : Time) (w : WindowNo), (mapTable (windowAtRollover t) night.windows)[w] = windowAtRollover t night.windows[w]) := by
  refine ⟨rfl, rfl, rfl, rfl, by decide, rfl, by decide, rfl, ⟨nofun, rfl⟩, by decide +kernel, by decide +kernel,
    by decide +kernel, nofun, rfl, rfl, by decide, fun t w => ?_⟩
  simp [mapTable]

/-- Boundaries of the opening match: minute 60 and hour 24 never match, nor does an empty weekday set. -/
theorem witness_OpeningMatch :
    (59 ≤ 59 ∧ 23 ≤ 23) ∧ (has (0b001 : FactorSet) 0 = true ∧ 60 ≤ 60) ∧ (has (0b010 : FactorSet) 1 = true ∧ 24 ≤ 24)
      ∧ has (0b100 : FactorSet) 2 = true := by
  decide

/-- A window of one minute that matches at hour 3 and not at hour 4. -/
def oneMinute : WindowSettings :=
  { enabled := true, hour := 3, minute := 0, factors := 0b010, weekdays := 0, duration := 1, routes := 0 }

theorem witness_WindowsAtARollover :
    oneMinute.enabled = true ∧ 1 ≤ oneMinute.duration
      ∧ opensAt oneMinute { day := 0, hour := 3, minute := 59, second := 0 } = true
      ∧ ∀ u ∈ [({ day := 0, hour := 4, minute := 0, second := 0 } : Time)], opensAt oneMinute u = false := by
  decide

/-! ### Trace arithmetic and judgement -/

theorem witness_AveragesLevelsAndEnds :
    (4 ≤ 4 ∧ 4 ≤ 16 ∧ 16 ≤ 16 ∧ 65535 * 2 ^ 16 ≤ 65535 * 2 ^ 16) ∧ 2 ^ 0 ≤ 1 ∧ 1 < 2 ^ (0 + 1) ∧ 2 ^ 23 ≤ 16776960
      ∧ 16776960 < 2 ^ (23 + 1) ∧ 16776960 ≤ 16776960 := by
  decide

theorem witness_DistanceOfAnIndex : 4 ≤ 4 ∧ 14000 ≤ 14000 ∧ 14000 ≤ 15500 ∧ 0 < 1 ∧ 32768 ≤ 32768 := by decide

/-- The levels of section 2.7.2 with the floor of 400, and with one of 349, which they never reach. -/
def tail : List Nat := [1210, 980, 720, 455, 402, 390, 410, 388, 371, 366, 350]

theorem witness_AveragesLevelsAndEnds_end :
    1 ≤ 4 ∧ 0 + 4 ≤ tail.length
      ∧ (∃ e, 0 ≤ e ∧ e + 4 ≤ tail.length ∧ ∀ i, e ≤ i → i < e + 4 → tail.getD i 0 ≤ 400)
      ∧ ¬∃ e, 0 ≤ e ∧ e + 4 ≤ tail.length ∧ ∀ i, e ≤ i → i < e + 4 → tail.getD i 0 ≤ 349 := by
  refine ⟨by decide, by decide, ⟨7, by decide, by decide, fun i h h' => ?_⟩, fun ⟨e, _, h, k⟩ => ?_⟩
  · have : ∀ i < 11, 7 ≤ i → tail.getD i 0 ≤ 400 := by decide
    exact this i h' h
  · have : ∀ i < 11, ¬tail.getD i 0 ≤ 349 := by decide
    exact this e (by simp only [tail, List.length_cons, List.length_nil] at h; omega) (k e (le_refl e) (by omega))

/-- A trace of 64 positions. -/
def acq64 : AcqSettings := { acq3 with len := 64 }

/-- The fresh trace of a fibre that stands at level 1,000. -/
def flat : List TraceCell := List.replicate 64 { level := 1000, sat := false }

theorem witness_BreaksAndLongerFibres :
    51 + judging3.tEnd < 60 ∧ 60 ≤ 52 + judging3.tEnd ∧ 50 + judging3.tEnd < 59 ∧ 64 = acq64.len ∧ 60 ≤ acq64.len
      ∧ acq64.len ≤ 56 + judging3.tEnd ∧ 1 ≤ judging3.width ∧ flat.length = acq64.len ∧ 13 ≤ acq64.len
      ∧ 12 < 8 + judging3.width + 1 ∧ 8 + judging3.width + 1 ≤ 13
      ∧ (judge acq64 judging3 8 12 flat [] 60).brk.map Break.kind = some .near
      ∧ (judge acq64 judging3 8 13 flat [] 60).brk.map Break.kind = some .nonReflective
      ∧ (judge acq64 { judging3 with tReflect := 0 } 8 13 flat [] 60).brk.map Break.kind = some .reflective := by
  decide

/-- A range of 8 positions is searched, one of 7 is not; the four conditions all occur. -/
theorem witness_ConditionOfOneTest :
    1 ≤ judging3.width ∧ flat.length = acq64.len ∧ (List.replicate 64 1000).length = acq64.len ∧ 64 ≤ acq64.len
      ∧ min 15 60 < 8 + 2 * judging3.width ∧ 8 + 2 * judging3.width ≤ min 16 60
      ∧ (judge acq64 judging3 8 51 flat (List.replicate 64 1000) 60).cond = .broken
      ∧ (judge acq64 judging3 8 60 flat (List.replicate 30 1000 ++ List.replicate 34 1100) 60).cond = .bend
      ∧ (judge acq64 judging3 8 60 flat (List.replicate 64 1100) 60).cond = .degraded
      ∧ (judge acq64 judging3 8 60 flat (List.replicate 64 1099) 60).cond = .clear := by
  decide +kernel

/-- One run of step sums, with its peak at index 30. -/
theorem witness_LossEventsOfATest :
    acq64.spacing ≤ 4 ∧ 14000 ≤ acq64.index ∧ acq64.index ≤ 15500 ∧ 1 ≤ judging3.width ∧ 5 ≤ judging3.tLoss
      ∧ flat.length = acq64.len ∧ (List.replicate 30 1000 ++ List.replicate 34 1100).length = acq64.len ∧ 60 ≤ acq64.len
      ∧ (judge acq64 judging3 8 60 flat (List.replicate 30 1000 ++ List.replicate 34 1100) 60).events
        = [{ index := 30, distance := distance 0 14680 30, loss := 100 }]
      ∧ (judge acq64 judging3 8 60 flat (List.replicate 30 1000 ++ List.replicate 34 1100) 60).more = false := by
  decide +kernel

/-- The run of the step at 30 is 27 to 33. -/
theorem witness_LossEventsOfATest_starts :
    ∀ (stepSum : Nat → Int) (searched run : Nat → Prop),
      (∀ i, stepSum i = if 27 ≤ i ∧ i ≤ 30 then 100 * (i - 26) else if 31 ≤ i ∧ i ≤ 33 then 100 * (34 - i) else 0) →
      (∀ i, searched i ↔ 8 + 4 ≤ i ∧ i + 4 ≤ min 60 60) → (∀ i, run i ↔ searched i ∧ (4 * 20 : Int) ≤ stepSum i) →
      [27].Pairwise (· < ·) ∧ ∀ i, i ∈ [27] ↔ run i ∧ ¬run (i - 1) := by
  intro stepSum searched run hs hd hr
  refine ⟨by decide, fun i => ?_⟩
  simp only [hr, hd, hs, List.mem_singleton]
  obtain h | h | h | h : i < 27 ∨ i = 27 ∨ (28 ≤ i ∧ i ≤ 33) ∨ 34 ≤ i := by omega
  all_goals split_ifs <;> omega

/-- A trace of width 1 whose differences alternate between 0 and 1.00 dB, `n` rises of them. -/
def rises (n : Nat) : Judgement :=
  judge acq64 { judging3 with width := 1 } 0 (2 * n) (List.replicate 64 { level := 1000, sat := false })
    ((List.range 64).map fun i => 1000 + 100 * (i % 2)) (2 * n)

/-- R50: 16 runs give 16 events and no flag, 17 give the first 16 and MORE_EVENTS. -/
theorem test_more_events :
    ((rises 16).events.length = 16 ∧ (rises 16).more = false) ∧ (rises 17).events.length = 16 ∧ (rises 17).more = true
      ∧ (rises 17).events = (rises 16).events ∧ (rises 17).events.map LossEvent.index = (List.range 16).map fun i => 2 * i + 1 := by
  decide +kernel

/-- A finding of condition `c` for route 3. -/
def finding (c : Condition) : Finding :=
  { route := 3, id := 5, acq := 8, cls := .urgent, time := Time.zero
    judgement := { cond := c, brk := none, events := [], more := false, longer := false, excess := none } }

theorem witness_FindingsAreTaken :
    ((after (exec (.defineRoute .scA 7 4 0 def3) (card [] idle))).routes[(4 : RouteNo)].body = some (body3 none))
      ∧ (lawful.routes[(finding .broken).route].body = some (body3 (some base3)) ∧ (body3 (some base3)).baseline = some base3
        ∧ (finding .broken).judgement.cond ≠ lawful.faults[(finding .broken).route].cond
        ∧ lawful.cands[(finding .broken).route] = some { cond := .broken, agree := 1 } ∧ 1 + 1 = judging3.confirm)
      ∧ (finding .bend).judgement.cond ≠ .broken ∧ 1 ≠ judging3.confirm
      ∧ (finding .clear).judgement.cond = lawful.faults[(finding .clear).route].cond
      ∧ isClosed (heldRoute underTest) 3 = true ∧ isClosed underTest 3 = false ∧ EngineFixed underTest ∧ QueueLaw underTest := by
  unfold EngineFixed QueueLaw
  decide +kernel

/-- A confirming CHECK in each of its ways: a new entry, a full queue, a join and an upgrade. -/
theorem witness_FindingsAreTaken_confirm :
    (∀ e ∈ underTest.queue.entries, isWaiting e = true → ¬(e.route = 3 ∧ e.kind = .check)) ∧ underTest.queue.entries.length < 32
      ∧ (underTest.queue.entries = underTest.queue.entries ++ [] ∧ ∀ e ∈ underTest.queue.entries, e.cls = .urgent)
      ∧ (32 ≤ (card thirtyTwo idle).queue.entries.length ∧ QueueLaw (card thirtyTwo idle)
        ∧ ∀ e ∈ (card thirtyTwo idle).queue.entries, isWaiting e = true → ¬(e.route = 3 ∧ e.kind = .check))
      ∧ takes.queue.entries = [] ++ waiting 1 3 .check .routine 1 :: [] ∧ (finding .bend).cls = .urgent
      ∧ ({ finding .bend with cls := .routine } : Finding).cls = .routine ∧ QueueLaw takes := by
  unfold QueueLaw
  decide +kernel

/-- R121, R132: in ANALYSING the confirming CHECK waits, URGENT, requested by CONFIRM alone; a ROUTINE one that waits is upgraded. -/
theorem test_confirmation :
    (takeFinding (finding .bend) underTest).queue.entries
        = [run5 .check .urgent 1, { waiting 9 3 .check .urgent 0 with reqs := add 0 confirmBit }]
      ∧ (takeFinding (finding .bend) { takes with engine := busy .analysing .check .urgent }).queue.entries
        = [{ waiting 1 3 .check .urgent 1 with reqs := add 1 confirmBit }] := by
  decide +kernel

end Sys2Proof.Tests
end

section
/-!
The distance of a sample index (R34): a quotient rounded half up lies within half a divisor of the exact one, and one step of
the index adds more than the divisor to the numerator at every spacing and every group index the card accepts.
-/
namespace Sys2Proof.Machine

/-! ### Quotients rounded half up -/

/-- Doubled so that the half of an odd divisor needs no fraction. -/
theorem half_up_bounds {n : Nat} (hn : 0 < n) (x : Nat) :
    2 * n * ((x + n / 2) / n) ≤ 2 * x + n ∧ 2 * x + n < 2 * n * ((x + n / 2) / n + 1) := by
  have hle : n * ((x + n / 2) / n) ≤ x + n / 2 := Nat.mul_div_le _ _
  have hlt : x + n / 2 < n * ((x + n / 2) / n + 1) := Nat.lt_mul_div_succ _ hn
  rw [Nat.mul_assoc, Nat.mul_assoc]
  omega

theorem half_up_lt_half_up {n x y : Nat} (hn : 0 < n) (h : x + n ≤ y) : (x + n / 2) / n < (y + n / 2) / n :=
  calc (x + n / 2) / n < (x + n / 2 + n) / n := by simp [Nat.add_div_right _ hn]
    _ ≤ (y + n / 2) / n := Nat.div_le_div_right (by omega)

/-! ### The spacings of Table 4-1 -/

theorem spacingCm_bounds (spacing : Nat) : 25 ≤ spacingCm spacing ∧ spacingCm spacing ≤ 400 := by
  unfold spacingCm
  split <;> decide

/-! ### The distance -/

theorem distance_zero {n : Nat} (spacing : Nat) (hn : 0 < n) : distance spacing n 0 = 0 := by
  simp only [distance, Nat.zero_mul, Nat.zero_add]
  exact Nat.div_eq_of_lt (Nat.div_lt_self hn Nat.one_lt_two)

/-- One index adds at least 25 × 14,680 to the numerator, so any group index up to that keeps two distances apart. -/
theorem distance_strictMono {n : Nat} (spacing : Nat) (hn : 0 < n) (hstep : n ≤ 25 * 14680) :
    StrictMono (distance spacing n) := by
  refine strictMono_nat_of_lt_succ fun i => half_up_lt_half_up hn ?_
  have hs := (spacingCm_bounds spacing).1
  rw [Nat.succ_mul]
  omega

/-- The numerator is largest at index 32,768 and 400 cm, the divisor smallest at 14,000. -/
theorem distance_le_largest {n i : Nat} (spacing : Nat) (hn : 14000 ≤ n) (hi : i ≤ 32768) :
    distance spacing n i ≤ 13743835 := by
  have hnum : i * spacingCm spacing ≤ 32768 * 400 := Nat.mul_le_mul hi (spacingCm_bounds spacing).2
  have hlt : i * spacingCm spacing * 14680 + n / 2 < 13743836 * n := by omega
  exact Nat.le_of_lt_succ (Nat.div_lt_of_lt_mul (Nat.mul_comm _ n ▸ hlt))

/-- Settles O56: the rounding by the bounds of a half-up quotient, the growth by the numerator's step. -/
theorem distanceOfAnIndex : Obligations.DistanceOfAnIndex := by
  intro spacing n _ hlow hhigh
  have hn : 0 < n := by omega
  refine ⟨fun i => ⟨rfl, half_up_bounds hn _⟩, distance_zero spacing hn, fun i j hij => ?_,
    fun i hi => distance_le_largest spacing hlow hi, by decide⟩
  exact distance_strictMono spacing hn (by omega) hij

end Sys2Proof.Machine
end

section
/-!
Breaks, their kinds and LONGER fibres (R45 to R47): the two ends against the end tolerance decide the break and LONGER, and the
highest of the last levels before the end reaches a bar exactly when one of those levels does.
-/
namespace Sys2Proof.Machine

/-! ### The highest level of a window (R46) -/

theorem le_foldl_max_iff {b : Nat} (l : List Nat) (a : Nat) : b ≤ l.foldl max a ↔ b ≤ a ∨ ∃ x ∈ l, b ≤ x := by
  induction l generalizing a with
  | nil => simp
  | cons y l ih => simp only [List.foldl_cons, ih, le_max_iff, List.exists_mem_cons_iff, or_assoc]

theorem mem_window_iff {lo hi x : Nat} {l : List Nat} (hhi : hi ≤ l.length) :
    x ∈ (l.take hi).drop lo ↔ ∃ i, lo ≤ i ∧ i < hi ∧ l.getD i 0 = x := by
  simp only [List.mem_iff_getElem, List.length_drop, List.length_take, List.getElem_drop, List.getElem_take]
  constructor
  · rintro ⟨k, hk, rfl⟩
    exact ⟨lo + k, by omega, by omega, List.getD_eq_getElem _ _ (by omega)⟩
  · rintro ⟨i, hlo, hlt, rfl⟩
    refine ⟨i - lo, by omega, ?_⟩
    rw [List.getD_eq_getElem _ _ (by omega)]
    congr 1
    omega

/-- The maximum starts at 0, which matters to no window that holds a level. -/
theorem le_window_max_iff {lo hi b : Nat} {l : List Nat} (hlohi : lo < hi) (hhi : hi ≤ l.length) :
    b ≤ ((l.take hi).drop lo).foldl max 0 ↔ ∃ i, lo ≤ i ∧ i < hi ∧ b ≤ l.getD i 0 := by
  rw [le_foldl_max_iff]
  constructor
  · rintro (hb | ⟨x, hx, hb⟩)
    · exact ⟨lo, le_refl lo, hlohi, by omega⟩
    · obtain ⟨i, hlo, hlt, rfl⟩ := (mem_window_iff hhi).1 hx
      exact ⟨i, hlo, hlt, hb⟩
  · rintro ⟨i, hlo, hlt, hb⟩
    exact .inr ⟨_, (mem_window_iff hhi).2 ⟨i, hlo, hlt, rfl⟩, hb⟩

/-! ### The kind of a break (R46) -/

theorem breakKind_eq_near_iff {dz w em t : Nat} {l : List Nat} : breakKind dz w em t l = .near ↔ em < dz + w + 1 := by
  unfold breakKind
  split_ifs with hnear
  · exact iff_of_true rfl hnear
  · refine iff_of_false ?_ hnear
    dsimp only
    split <;> decide

theorem breakKind_of_far {dz w em t : Nat} {l : List Nat} (hfar : dz + w + 1 ≤ em) :
    breakKind dz w em t l
      = if l.getD (em - w - 1) 0 + t ≤ ((l.take em).drop (em - w)).foldl max 0 then .reflective else .nonReflective :=
  if_neg (Nat.not_lt.2 hfar)

theorem breakKind_eq_reflective_iff {dz w em t : Nat} {l : List Nat} (hw : 1 ≤ w) (hlen : em ≤ l.length)
    (hfar : dz + w + 1 ≤ em) :
    breakKind dz w em t l = .reflective
      ↔ ∃ i, em - w ≤ i ∧ i < em ∧ l.getD (em - w - 1) 0 + t ≤ l.getD i 0 := by
  rw [breakKind_of_far hfar, ← le_window_max_iff (by omega) hlen]
  simp

/-- Away from the dead zone a break is of one of two kinds. -/
theorem breakKind_eq_nonReflective_iff {dz w em t : Nat} {l : List Nat} (hfar : dz + w + 1 ≤ em) :
    breakKind dz w em t l = .nonReflective ↔ breakKind dz w em t l ≠ .reflective := by
  rw [breakKind_of_far hfar]
  split <;> decide

/-! ### The two ends (R45, R47) -/

section
variable {a : AcqSettings} {j : Judging} {dz em : Nat} {cells : List TraceCell} {base : List Nat} {eb : Nat}

theorem judge_brk_eq_some_iff {x : Break} :
    (judge a j dz em cells base eb).brk = some x
      ↔ em + j.tEnd < eb
        ∧ { kind := breakKind dz j.width em j.tReflect (cells.map TraceCell.level)
            distance := distance a.spacing a.index em } = x := by
  simp [judge]

theorem judge_brk_eq_none_iff : (judge a j dz em cells base eb).brk = none ↔ eb ≤ em + j.tEnd := by
  simp [judge]

theorem judge_longer_iff : (judge a j dz em cells base eb).longer = true ↔ eb + j.tEnd < em := by
  simp [judge]

end

/-- Settles O57: the clauses on the ends by arithmetic, the kinds by the highest level of the window before the end. -/
theorem breaksAndLongerFibres : Obligations.BreaksAndLongerFibres := by
  rintro a j dz em cells base eb g rfl
  rw [ne_eq, ← Bool.not_eq_true, judge_brk_eq_none_iff, judge_longer_iff]
  refine ⟨fun h => ⟨_, judge_brk_eq_some_iff.2 ⟨h, rfl⟩⟩, id, Iff.rfl, by omega, ?_, by omega, by omega⟩
  intro hw hcells hem x level hx hlevel
  obtain ⟨_, rfl⟩ := judge_brk_eq_some_iff.1 hx
  refine ⟨breakKind_eq_near_iff, fun hfar => ?_⟩
  have hlen : em ≤ (cells.map TraceCell.level).length := by rwa [List.length_map, hcells]
  have hlevels (i : Nat) : (cells.map TraceCell.level).getD i 0 = level i :=
    (List.getD_map _ { level := 0, sat := false } TraceCell.level).trans (hlevel i).symm
  have hreflective := breakKind_eq_reflective_iff (t := j.tReflect) hw hlen hfar
  simp only [hlevels] at hreflective
  refine ⟨hreflective, (breakKind_eq_nonReflective_iff hfar).trans ?_⟩
  simp only [ne_eq, hreflective, not_exists, not_and, Nat.not_le]

end Sys2Proof.Machine
end

section
/-!
The opening match of a window (R146): a non-empty factor set each of whose factors matches the clock, and the stored settings
that no value of the clock can match.
-/
namespace Sys2Proof.Machine

/-! ### The opening match (R146) -/

theorem opensAt_iff {w : WindowSettings} {t : Time} :
    opensAt w t = true
      ↔ w.factors ≠ 0 ∧ (has w.factors 0 = true → t.minute = w.minute) ∧ (has w.factors 1 = true → t.hour = w.hour)
        ∧ (has w.factors 2 = true → has w.weekdays (t.day % 7) = true) := by
  simp only [opensAt, Bool.and_eq_true, bne_iff_ne, Bool.or_eq_true, Bool.not_eq_true', beq_iff_eq, imp_iff_not_or,
    Bool.not_eq_true, and_assoc]

/-! ### Factors that never match (R146) -/

section
variable {w : WindowSettings} {t : Time}

theorem opensAt_eq_false_of_minute (hin : has w.factors 0 = true) (hne : t.minute ≠ w.minute) : opensAt w t = false := by
  refine Bool.eq_false_iff.2 fun hopen => hne ?_
  obtain ⟨_, hmatch, _, _⟩ := opensAt_iff.1 hopen
  exact hmatch hin

theorem opensAt_eq_false_of_hour (hin : has w.factors 1 = true) (hne : t.hour ≠ w.hour) : opensAt w t = false := by
  refine Bool.eq_false_iff.2 fun hopen => hne ?_
  obtain ⟨_, _, hmatch, _⟩ := opensAt_iff.1 hopen
  exact hmatch hin

theorem opensAt_eq_false_of_no_weekdays (hin : has w.factors 2 = true) (hempty : w.weekdays = 0) :
    opensAt w t = false := by
  refine Bool.eq_false_iff.2 fun hopen => ?_
  obtain ⟨_, _, _, hmatch⟩ := opensAt_iff.1 hopen
  simpa [hempty] using hmatch hin

end

/-- Settles O53: the match factor by factor, then the start values out of the clock's range and the empty weekday set. -/
theorem openingMatch : Obligations.OpeningMatch := by
  intro w t
  refine ⟨opensAt_iff, fun hminute hhour => ?_⟩
  rintro (⟨hin, hlarge⟩ | ⟨hin, hlarge⟩ | ⟨hin, hempty⟩)
  · exact opensAt_eq_false_of_minute hin (by omega)
  · exact opensAt_eq_false_of_hour hin (by omega)
  · exact opensAt_eq_false_of_no_weekdays hin hempty

end Sys2Proof.Machine
end

section
/-!
What one command can do, said once: the owner of each request, what the readers of a frame let through, and the effects a
command has on the card, from which the proofs about every step go case by case.
-/
namespace Sys2Proof

/-! ### What the readers of a frame let through (R180, R184) -/

theorem read1_lt {ps t : List Byte} {n : Nat} (h : read1 ps = some (n, t)) : n < 256 := by
  cases ps with
  | nil => cases h
  | cons b ps => simp only [read1, Option.some.injEq, Prod.mk.injEq] at h; have := b.isLt; omega

theorem read2_lt {ps t : List Byte} {n : Nat} (h : read2 ps = some (n, t)) : n < 65536 := by
  match ps, h with
  | b :: c :: _, h =>
    simp only [read2, Option.some.injEq, Prod.mk.injEq] at h
    have := b.isLt
    have := c.isLt
    omega

theorem read1_fits {ps t : List Byte} {n : Nat} (h : read1 ps = some (n, t)) : fits1 n = true :=
  decide_eq_true (read1_lt h)

theorem read2_fits {ps t : List Byte} {n : Nat} (h : read2 ps = some (n, t)) : fits2 n = true :=
  decide_eq_true (read2_lt h)

/-- What a reader lets through is let through behind a presence byte. -/
theorem readOpt_some {α : Type} {f : List Byte → Option (α × List Byte)} {ps t : List Byte} {a : α}
    (h : readOpt f ps = some (some a, t)) : ∃ qs, f qs = some (a, t) := by
  cases ps with
  | nil => cases h
  | cons b qs =>
    simp only [readOpt] at h
    split_ifs at h
    · simp at h
    · split at h
      · rename_i a' t' hf
        simp only [Option.some.injEq, Prod.mk.injEq] at h
        exact ⟨qs, by rw [hf, h.1, h.2]⟩
      · simp at h

theorem readOpt_fits {f : List Byte → Option (Nat × List Byte)} {fits : Nat → Bool} {ps t : List Byte} {o : Option Nat}
    (hf : ∀ qs n u, f qs = some (n, u) → fits n = true) (h : readOpt f ps = some (o, t)) : fitsOpt fits o = true := by
  cases o with
  | none => rfl
  | some n =>
    obtain ⟨qs, hqs⟩ := readOpt_some h
    exact hf qs n t hqs

theorem readOpt_fits1 {ps t : List Byte} {o : Option Nat} (h : readOpt read1 ps = some (o, t)) : fitsOpt fits1 o = true :=
  readOpt_fits (fun _ _ _ => read1_fits) h

theorem readOpt_fits2 {ps t : List Byte} {o : Option Nat} (h : readOpt read2 ps = some (o, t)) : fitsOpt fits2 o = true :=
  readOpt_fits (fun _ _ _ => read2_fits) h

theorem readLabel_fits {ps t : List Byte} {cs : List Nat} (h : readLabel ps = some (cs, t)) :
    (fits1 cs.length && cs.all fits1) = true := by
  cases ps with
  | nil => cases h
  | cons n ps =>
    simp only [readLabel] at h
    split_ifs at h
    · cases h
      have hn := n.isLt
      simp only [fits1, Bool.and_eq_true, decide_eq_true_eq, List.all_eq_true, List.mem_map, List.length_map,
        List.length_take]
      refine ⟨by omega, ?_⟩
      rintro _ ⟨b, -, rfl⟩
      exact b.isLt

theorem readDef_fits {ps t : List Byte} {d : RouteDef} (h : readDef ps = some (d, t)) : d.wellFormed = true := by
  unfold readDef at h
  obtain ⟨⟨label, t0⟩, h0, h⟩ := Option.bind_eq_some_iff.mp h
  obtain ⟨⟨pulse, t1⟩, h1, h⟩ := Option.bind_eq_some_iff.mp h
  obtain ⟨⟨spacing, t2⟩, h2, h⟩ := Option.bind_eq_some_iff.mp h
  obtain ⟨⟨len, t3⟩, h3, h⟩ := Option.bind_eq_some_iff.mp h
  obtain ⟨⟨shots, t4⟩, h4, h⟩ := Option.bind_eq_some_iff.mp h
  obtain ⟨⟨index, t5⟩, h5, h⟩ := Option.bind_eq_some_iff.mp h
  obtain ⟨⟨dead, t6⟩, h6, h⟩ := Option.bind_eq_some_iff.mp h
  obtain ⟨⟨width, t7⟩, h7, h⟩ := Option.bind_eq_some_iff.mp h
  obtain ⟨⟨tLoss, t8⟩, h8, h⟩ := Option.bind_eq_some_iff.mp h
  obtain ⟨⟨tTotal, t9⟩, h9, h⟩ := Option.bind_eq_some_iff.mp h
  obtain ⟨⟨tEnd, t10⟩, h10, h⟩ := Option.bind_eq_some_iff.mp h
  obtain ⟨⟨tReflect, t11⟩, h11, h⟩ := Option.bind_eq_some_iff.mp h
  obtain ⟨⟨floor, t12⟩, h12, h⟩ := Option.bind_eq_some_iff.mp h
  obtain ⟨⟨confirm, t13⟩, h13, h⟩ := Option.bind_eq_some_iff.mp h
  simp only [Option.some.injEq, Prod.mk.injEq] at h
  obtain ⟨rfl, -⟩ := h
  have hlabel : RouteDef.labelFits { label, pulse, spacing, len, shots, index, dead, width, tLoss, tTotal, tEnd, tReflect, floor, confirm } = true := by
    cases label with
    | none => rfl
    | some cs =>
      obtain ⟨qs, hqs⟩ := readOpt_some h0
      exact readLabel_fits hqs
  simp [RouteDef.wellFormed, hlabel, read1_fits h1, read1_fits h2, read2_fits h3, read1_fits h4, read2_fits h5,
    read2_fits h6, read1_fits h7, read2_fits h8, read2_fits h9, read1_fits h10, read2_fits h11, read2_fits h12,
    read1_fits h13]

theorem readWindowDef_fits {ps t : List Byte} {d : WindowDef} (h : readWindowDef ps = some (d, t)) :
    d.wellFormed = true := by
  simp only [readWindowDef, Option.bind_eq_bind, Option.bind_eq_some_iff, Prod.exists, Option.some.injEq, Prod.mk.injEq] at h
  obtain ⟨enabled, t0, h0, hour, t1, h1, minute, t2, h2, factors, t3, -, weekdays, t4, -, duration, t5, h5, routes, t6, -,
    rfl, -⟩ := h
  simp [WindowDef.wellFormed, read1_fits h0, read1_fits h1, read1_fits h2, read2_fits h5]

theorem readNoticeParts_fits {ps t : List Byte} {p : NoticeParts} (h : readNoticeParts ps = some (p, t)) :
    p.wellFormed = true := by
  unfold readNoticeParts at h
  obtain ⟨⟨faultMode, t0⟩, h0, h⟩ := Option.bind_eq_some_iff.mp h
  obtain ⟨⟨done, t1⟩, h1, h⟩ := Option.bind_eq_some_iff.mp h
  obtain ⟨⟨window, t2⟩, h2, h⟩ := Option.bind_eq_some_iff.mp h
  obtain ⟨⟨equip, t3⟩, h3, h⟩ := Option.bind_eq_some_iff.mp h
  obtain ⟨⟨log, t4⟩, h4, h⟩ := Option.bind_eq_some_iff.mp h
  obtain ⟨⟨clearMode, t5⟩, h5, h⟩ := Option.bind_eq_some_iff.mp h
  obtain ⟨⟨lineMode, t6⟩, h6, h⟩ := Option.bind_eq_some_iff.mp h
  obtain ⟨⟨polarity, t7⟩, h7, h⟩ := Option.bind_eq_some_iff.mp h
  obtain ⟨⟨pulseLen, t8⟩, h8, h⟩ := Option.bind_eq_some_iff.mp h
  obtain ⟨⟨threshold, t9⟩, h9, h⟩ := Option.bind_eq_some_iff.mp h
  simp only [Option.some.injEq, Prod.mk.injEq] at h
  obtain ⟨rfl, -⟩ := h
  simp [NoticeParts.wellFormed, readOpt_fits1 h0, readOpt_fits1 h1, readOpt_fits1 h2, readOpt_fits1 h3, readOpt_fits1 h4,
    readOpt_fits1 h5, readOpt_fits1 h6, readOpt_fits1 h7, readOpt_fits1 h8, readOpt_fits1 h9]

theorem readBarred_fits {ps t : List Byte} {a b : Nat} (h : readBarred ps = some (some (a, b), t)) :
    (fits1 a && fits1 b) = true := by
  cases ps with
  | nil => cases h
  | cons x ps =>
    simp only [readBarred] at h
    split_ifs at h
    · simp at h
    · match ps, h with
      | f :: l :: _, h =>
        simp only [Option.some.injEq, Prod.mk.injEq] at h
        simp [fits1, ← h.1.1, ← h.1.2, f.isLt, l.isLt]

theorem readDeviceParts_fits {ps t : List Byte} {p : DeviceParts} (h : readDeviceParts ps = some (p, t)) :
    p.wellFormed = true := by
  simp only [readDeviceParts, Option.bind_eq_bind, Option.bind_eq_some_iff, Prod.exists, Option.some.injEq, Prod.mk.injEq] at h
  obtain ⟨live, t0, h0, timeout, t1, h1, barred, t2, h2, rfl, -⟩ := h
  match barred, h2 with
  | none, _ => simp [DeviceParts.wellFormed, readOpt_fits2 h0, readOpt_fits1 h1]
  | some none, _ => simp [DeviceParts.wellFormed, readOpt_fits2 h0, readOpt_fits1 h1]
  | some (some (a, b)), h2 =>
    obtain ⟨qs, hqs⟩ := readOpt_some h2
    have hab := readBarred_fits hqs
    simp only [Bool.and_eq_true] at hab
    simp [DeviceParts.wellFormed, readOpt_fits2 h0, readOpt_fits1 h1, hab]

theorem whole_eq_some {α : Type} {a r : α} {ps : List Byte} : whole a ps = some r ↔ ps = [] ∧ a = r := by
  cases ps <;> simp [whole]

/-- A request parsed from a frame has numbers that fit its fields. -/
theorem parseRequest_wellFormed {code : Nat} {ps : List Byte} {r : Request} (h : parseRequest code ps = some r) :
    r.wellFormed = true := by
  unfold parseRequest at h
  split at h <;>
    simp only [Option.bind_eq_bind, Option.bind_eq_some_iff, Prod.exists, whole_eq_some, reduceCtorEq] at h
  case h_3 | h_17 | h_18 | h_19 | h_21 | h_23 | h_25 | h_26 | h_27 | h_28 => obtain ⟨-, rfl⟩ := h; rfl
  case h_7 | h_11 | h_12 | h_13 | h_15 | h_4 =>
    obtain ⟨n, t, h1, -, rfl⟩ := h
    exact read1_fits h1
  case h_1 =>
    obtain ⟨n, t, h1, k, u, h2, c, v, h3, -, rfl⟩ := h
    simp [Request.wellFormed, read1_fits h1, read1_fits h2, read1_fits h3]
  case h_2 =>
    obtain ⟨n, t, h1, -, rfl⟩ := h
    exact read2_fits h1
  case h_5 =>
    obtain ⟨n, t, h1, k, u, h2, d, v, h3, -, rfl⟩ := h
    simp [Request.wellFormed, read1_fits h1, read2_fits h2, readDef_fits h3]
  case h_6 =>
    obtain ⟨n, t, h1, k, u, h2, -, rfl⟩ := h
    simp [Request.wellFormed, read1_fits h1, read2_fits h2]
  case h_8 =>
    obtain ⟨n, t, h1, k, u, h2, -, rfl⟩ := h
    simp [Request.wellFormed, read1_fits h1, readOpt_fits1 h2]
  case h_9 =>
    obtain ⟨n, t, h1, k, u, h2, c, v, h3, -, rfl⟩ := h
    simp [Request.wellFormed, read2_fits h1, read2_fits h2, read1_fits h3]
  case h_10 =>
    obtain ⟨n, t, h1, k, u, h2, c, v, h3, e, w, h4, -, rfl⟩ := h
    simp [Request.wellFormed, read1_fits h1, read2_fits h2, read1_fits h3, readOpt_fits2 h4]
  case h_14 =>
    obtain ⟨n, t, h1, d, u, h2, -, rfl⟩ := h
    simp [Request.wellFormed, read1_fits h1, readWindowDef_fits h2]
  case h_16 =>
    obtain ⟨n, t, h1, k, u, h2, c, v, h3, b, w, -, -, rfl⟩ := h
    simp [Request.wellFormed, read2_fits h1, read1_fits h2, read1_fits h3]
  case h_20 =>
    obtain ⟨p, t, h1, -, rfl⟩ := h
    exact readNoticeParts_fits h1
  case h_22 => obtain ⟨a, t, -, -, rfl⟩ := h; rfl
  case h_24 =>
    obtain ⟨p, t, h1, -, rfl⟩ := h
    exact readDeviceParts_fits h1

/-- A request parsed from a frame is the one its code names (Table 11-1). -/
theorem parseRequest_code {code : Nat} {ps : List Byte} {r : Request} (h : parseRequest code ps = some r) :
    r.code = code := by
  unfold parseRequest at h
  split at h <;>
    simp only [Option.bind_eq_bind, Option.bind_eq_some_iff, Prod.exists, whole_eq_some, reduceCtorEq] at h <;>
    grind [Request.code]

theorem Request.on_wellFormed (c : Client) (tag : Byte) (r : Request) : (r.on c tag).wellFormed = r.wellFormed := by
  cases r <;> rfl

theorem Request.code_known (r : Request) : 1 ≤ r.code ∧ r.code ≤ 28 := by
  cases r <;> exact ⟨by simp [Request.code], by simp [Request.code]⟩

end Sys2Proof
end

section
/-!
The effects of a command on the card: one constructor for each thing a command can do, so that an invariant is proved effect
by effect and no proof about a step opens the commands again.
-/
namespace Sys2Proof.Machine

/-! ### The owner of each request (R180, check 4) -/

/-- The owner of a request from client `c`. -/
def ownerOf (c : Client) : Request → Owner
  | .test route kind cls => ownTest c route kind cls
  | .cancel id => ownCancel c id
  | .mark => ownMark c
  | .readQueue start => ownReadQueue c start
  | .defineRoute route rev d => ownDefineRoute c route rev d
  | .deleteRoute route rev => ownDeleteRoute c route rev
  | .readRoute route => ownReadRoute route
  | .readResult route first => ownReadResult route first
  | .readTrace acq offset count => ownReadTrace acq offset count
  | .readBaseline route offset count expected => ownReadBaseline route offset count expected
  | .hold route => ownHold c route
  | .release route => ownRelease c route
  | .clearHolds route => ownClearHolds c route
  | .setWindow w d => ownSetWindow w d
  | .readWindow w => ownReadWindow w
  | .setClock day hour minute start => ownSetClock c day hour minute start
  | .startClock => ownStartClock c
  | .stopClock => ownStopClock c
  | .readClock => ownReadClock
  | .setNotices p => ownSetNotices c p
  | .readNotices => ownReadNotices c
  | .ackNotices a => ownAckNotices c a
  | .readLog => ownReadLog c
  | .setDevice p => ownSetDevice p
  | .readDevice => ownReadDevice
  | .readEquipment => ownReadEquipment
  | .clearEquipment => ownClearEquipment c
  | .reset => ownReset

/-- A request row of the table is the request taken for its owner. -/
theorem exec_on (c : Client) (tag : Byte) (r : Request) (s : State) :
    exec (r.on c tag) s = request c tag r.code (ownerOf c r) s := by
  cases r <;> rfl

/-- A parsed request is served as its row of the table. -/
theorem serve_eq_exec (c : Client) (tag : Byte) (r : Request) (s : State) : serve c tag r s = exec (r.on c tag) s := by
  cases r <;> rfl

/-- A request row is executed to a next state, whatever the state. -/
theorem exec_on_eq (c : Client) (tag : Byte) (r : Request) (s : State) :
    exec (r.on c tag) s = .next (onLink c tag r.code (ifPermitted c r.code (ownerOf c r)) s) :=
  exec_on c tag r s

/-! ### What a request does on its link -/

theorem onLink_held {s : State} (c : Client) (tag : Byte) (code : Nat) (own : Owner) (h : s.shelf ≠ none) :
    onLink c tag code own s = s := by
  simp [onLink, Option.isSome_iff_ne_none, h]

theorem onLink_busy {c : Client} {s : State} (tag : Byte) (code : Nat) (own : Owner) (h : s.shelf = none)
    (hl : (perGet s.links c).service ≠ none) : onLink c tag code own s = refuseBusy c tag s := by
  simp [onLink, h, Option.isSome_iff_ne_none, hl]

theorem onLink_ready {c : Client} {s : State} (tag : Byte) (code : Nat) (own : Owner) (h : Ready c s) :
    onLink c tag code own s = answer c tag code (own s) := by
  simp [onLink, h.1, h.2]

/-! ### Effects -/

/-- What a command can do to the card; `wf` says whether the command is a well-formed one. -/
inductive Effect (wf : Prop) : State → State → Prop where
  /-- Nothing: the command makes no event, or changes only its reply. -/
  | nothing (s : State) : Effect wf s s
  /-- The receive assembly of a link moves (R176, R177). -/
  | assembly {s : State} (c : Client) (a : Assembly) (line : s.shelf = none)
      (ok : AssemblyOk (perGet s.links c).rx → AssemblyOk a) : Effect wf s (setRx c a s)
  /-- The second check byte empties the assembly before its frame has its effect (R177). -/
  | framed {s t : State} (c : Client) (line : s.shelf = none) (after : Effect wf (setRx c .hunt s) t) : Effect wf s t
  /-- A reply has been sent that brings no craft reset (R179). -/
  | sent {s : State} (c : Client) (owed : (perGet s.links c).owed ≠ []) (noReset : ¬(c = .cr ∧ s.craftArmed = true)) :
      Effect wf s (setLink c (linkAfterSent (perGet s.links c)) s)
  /-- A frame on a link in service (R179). -/
  | busy {s : State} (c : Client) (tag : Byte) (line : s.shelf = none) (service : (perGet s.links c).service ≠ none) :
      Effect wf s (refuseBusy c tag s)
  /-- A frame that is answered without its owner (R180). -/
  | turnedAway {s : State} (c : Client) (tag : Byte) (code : Nat) (st : Status) (ready : Ready c s) (notBusy : st ≠ .busy) :
      Effect wf s (answer c tag code (s, st, .none))
  /-- A request taken by its owner (R180). -/
  | served {s : State} (c : Client) (tag : Byte) (r : Request) (ready : Ready c s) (may : permitted r.code c = true)
      (fits : wf → r.wellFormed = true) : Effect wf s (answer c tag r.code (ownerOf c r s))
  /-- A craft reset, commanded or brought by a reply (R182). -/
  | craftReset {s : State} (line : s.shelf = none ∨ s.craftArmed = true ∧ (perGet s.links .cr).owed ≠ []) :
      Effect wf s (craftResetNow s)
  | shelfReset {s : State} (line : s.shelf = none) : Effect wf s { beginReset s with shelf := some .shelfReset }
  | release {s : State} (k : ResetKind) (line : s.shelf = some k) : Effect wf s (endReset k s)
  | powerOnHeld {s : State} (line : s.shelf ≠ none) : Effect wf s { powerLoss s with shelf := some .powerOn }
  | powerOn {s : State} (line : s.shelf = none) : Effect wf s (endReset .powerOn (powerLoss s))
  /-- The switch arrives and the engine takes no notice (R1). -/
  | arrived {s : State} (at_ : SwitchTarget) (moving : s.switch = .moving at_) : Effect wf s { s with switch := .standing at_ }
  | settled {s : State} (p : RouteNo) (state : s.engine.state = .switching)
      (route : s.engine.running.map Running.route = some p) :
      Effect wf s (startLiveCheck { s with switch := .standing (.port p) })
  | homed {s : State} (state : s.engine.state = .recovering) (timer : s.engine.timer.isSome = true) :
      Effect wf s (concludeIn .idle { s with switch := .standing .home })
  | stuck {s : State} (state : s.engine.state = .switching) :
      Effect wf s (homeSwitch (finishEntry .switchStuck (some .switchStuck) none none s))
  | homeFailed {s : State} (state : s.engine.state = .recovering) (timer : s.engine.timer.isSome = true) :
      Effect wf s { equipError .homeFailed none s with engine := { s.engine with state := .faulted, timer := none } }
  | liveLight {s : State} (run : Running) (rec : LiveRecord) (state : s.engine.state = .liveCheck)
      (running : s.engine.running = some run) :
      Effect wf s (concludeIn .idle (finishEntry .liveLight none none none
        { s with front := { s.front with checking := false, record := some rec } }))
  | fires {s : State} (run : Running) (rec : LiveRecord) (state : s.engine.state = .liveCheck)
      (running : s.engine.running = some run) :
      Effect wf s (startFiring run.settings.len { s with front := { s.front with checking := false, record := some rec } })
  /-- A shot of the running acquisition that is not its last (R11). -/
  | shot {s : State} (run : Running) (samples : List Sample) (state : s.engine.state = .firing)
      (running : s.engine.running = some run) (length : samples.length = run.settings.len)
      (more : s.engine.shotCount + 1 < shotTarget run.settings) :
      Effect wf s { s with engine := { s.engine with
        acc := addShot s.engine.acc samples, shotCount := s.engine.shotCount + 1, timer := some .shot } }
  | lastShot {s : State} (run : Running) (samples : List Sample) (state : s.engine.state = .firing)
      (running : s.engine.running = some run) (length : samples.length = run.settings.len)
      (last : shotTarget run.settings ≤ s.engine.shotCount + 1) :
      Effect wf s (startAnalysing run { s with engine := { s.engine with
        acc := addShot s.engine.acc samples, shotCount := s.engine.shotCount + 1, timer := some .shot } })
  | acqTimeout {s : State} (state : s.engine.state = .firing) :
      Effect wf s (concludeIn .idle (finishEntry .acqTimeout (some .acqTimeout) none none (frontOff s)))
  /-- The end of an analysis that finishes the test (R13, R54). -/
  | analysed {s : State} (run : Running) (f : AnalysisFields) (cells : List TraceCell) (out : TestOutcome)
      (j : Option Judgement) (state : s.engine.state = .analysing) (running : s.engine.running = some run)
      (trace : cells = traceCells (shotTarget run.settings) s.engine.acc)
      (judged : ∀ x, j = some x → x.cond ≠ .unknown) :
      Effect wf s (concludeIn (stateAfterStage s) (finishEntry out none (some { fields := f, time := s.clock.now }) j
        (holdTrace run f cells s)))
  /-- The end of an analysis that starts writing a capture (R13, R89). -/
  | commits {s : State} (run : Running) (f : AnalysisFields) (cells : List TraceCell) (state : s.engine.state = .analysing)
      (running : s.engine.running = some run) (kind : run.kind = .capture)
      (trace : cells = traceCells (shotTarget run.settings) s.engine.acc) :
      Effect wf s (startWrite 0 { holdTrace run f cells s with
        engine := { (holdTrace run f cells s).engine with state := .committing } })
  | nextWrite {s : State} (r : Reservation) (w : Nat) (data : List Nat) (run : Running)
      (state : s.engine.state = .committing) (running : s.engine.running = some run) (resv : s.store.resv = some r)
      (phase : r.phase = .writing w data) (more : w + 1 < r.blocks.length) :
      Effect wf s (startWrite (w + 1) (writeDone (r.blocks.getD w 0) data s))
  | captured {s : State} (r : Reservation) (w : Nat) (data : List Nat) (run : Running) (h : HeldAnalysis)
      (state : s.engine.state = .committing) (running : s.engine.running = some run) (held : s.engine.held = some h)
      (resv : s.store.resv = some r) (phase : r.phase = .writing w data) (last : r.blocks.length ≤ w + 1) :
      Effect wf s (concludeIn (stateAfterStage s) (finishEntry .captured none (some h) none
        (commitCapture run r h (writeDone (r.blocks.getD w 0) data s))))
  | storeError {s : State} (r : Reservation) (w : Nat) (data : List Nat) (state : s.engine.state = .committing)
      (resv : s.store.resv = some r) (phase : r.phase = .writing w data) :
      Effect wf s (concludeIn (stateAfterStage s) (finishEntry .storeError (some .storeWriteFail) s.engine.held none
        (writeLost r (r.blocks.getD w 0) s)))
  | cutOffGood {s : State} (r : Reservation) (w : Nat) (data : List Nat) (state : s.engine.state ≠ .committing)
      (resv : s.store.resv = some r) (phase : r.phase = .writing w data) :
      Effect wf s (cutOffEnds { writeDone (r.blocks.getD w 0) data s with
        store := { (writeDone (r.blocks.getD w 0) data s).store with
          free := giveBack r.blocks (writeDone (r.blocks.getD w 0) data s).store.free, resv := none } })
  | cutOffFailed {s : State} (r : Reservation) (w : Nat) (data : List Nat) (state : s.engine.state ≠ .committing)
      (resv : s.store.resv = some r) (phase : r.phase = .writing w data) :
      Effect wf s (cutOffEnds (writeLost r (r.blocks.getD w 0) s))
  | laserFault (s : State) : Effect wf s (laserFault { s with front := { s.front with fault := true } })
  | faultEnds (s : State) : Effect wf s { s with front := { s.front with fault := false } }
  | pulseEnds (s : State) (c : Client) :
      Effect wf s { s with notices := perSet s.notices c (endPulse (perGet s.notices c)) }
  | tick (s : State) : Effect wf s (tickClock s)

/-! ### Every command has one of these effects -/

section
variable {wf : Prop} {s t : State}

theorem onLink_effect (c : Client) (tag : Byte) (r : Request) (s : State) (fits : wf → r.wellFormed = true) :
    Effect wf s (onLink c tag r.code (ifPermitted c r.code (ownerOf c r)) s) := by
  by_cases line : s.shelf = none
  · by_cases service : (perGet s.links c).service = none
    · rw [onLink_ready tag _ _ ⟨line, service⟩]
      cases may : permitted r.code c with
      | true => simpa [ifPermitted, may] using Effect.served c tag r ⟨line, service⟩ may fits
      | false => simpa [ifPermitted, may] using Effect.turnedAway c tag r.code .notPermitted ⟨line, service⟩ (by decide)
    · rw [onLink_busy tag _ _ line service]
      exact .busy c tag line service
  · rw [onLink_held c tag _ _ line]
    exact .nothing s

theorem onLink_turnedAway (c : Client) (tag : Byte) (code : Nat) (own : Owner) (st : Status)
    (h : own s = (s, st, .none)) (notBusy : st ≠ .busy) : Effect wf s (onLink c tag code own s) := by
  by_cases line : s.shelf = none
  · by_cases service : (perGet s.links c).service = none
    · rw [onLink_ready tag _ _ ⟨line, service⟩, h]
      exact .turnedAway c tag code st ⟨line, service⟩ notBusy
    · rw [onLink_busy tag _ _ line service]
      exact .busy c tag line service
  · rw [onLink_held c tag _ _ line]
    exact .nothing s

theorem takeFrame_effect {c : Client} {body : List Byte} (h : takeFrame c body s = .next t) : Effect wf s t := by
  unfold takeFrame at h
  split at h
  · rename_i tag code ps
    split at h
    · cases h
      exact onLink_turnedAway c tag code.toNat _ .badRequest rfl (by decide)
    · split at h
      · rename_i r hr
        rw [serve_eq_exec, exec_on_eq] at h
        cases h
        exact onLink_effect c tag r s fun _ => parseRequest_wellFormed hr
      · cases h
        unfold ifPermitted
        cases hp : permitted code.toNat c with
        | true => exact onLink_turnedAway c tag code.toNat _ .badRequest (by simp) (by decide)
        | false => exact onLink_turnedAway c tag code.toNat _ .notPermitted (by simp) (by decide)
  · cases h
    exact .nothing s

theorem execCharacterReceived_effect {c : Client} {b : Byte} (h : execCharacterReceived c b s = .next t) :
    Effect wf s t := by
  unfold execCharacterReceived at h
  split at h
  · cases h
    exact .nothing s
  rename_i hline
  have line : s.shelf = none := by simpa using hline
  split at h
  · cases h
    split
    · exact .assembly c .length line fun _ => trivial
    · exact .nothing s
  · cases h
    refine .assembly c _ line fun _ => ?_
    split
    · rename_i hn
      exact ⟨hn.1, hn.2, by simp only [List.length_nil]; omega⟩
    · trivial
  · rename_i n got hrx
    cases h
    refine .assembly c _ line fun hok => ?_
    rw [hrx] at hok
    obtain ⟨h2, h250, hlt⟩ := hok
    split
    · rename_i hmore
      exact ⟨h2, h250, hmore⟩
    · rename_i hdone
      simp only [List.length_append, List.length_singleton] at hdone
      simp only [AssemblyOk, List.length_append, List.length_singleton]
      omega
  · rename_i body hrx
    cases h
    exact .assembly c _ line fun hok => by rw [hrx] at hok; exact hok
  · split at h
    · exact .framed c line (takeFrame_effect h)
    · cases h
      exact .assembly c .hunt line fun _ => trivial

theorem execReplySent_effect {c : Client} (h : execReplySent c s = .next t) : Effect wf s t := by
  simp only [execReplySent] at h
  split_ifs at h with owed reset <;> cases h
  · exact .nothing s
  · obtain ⟨rfl, armed⟩ := reset
    exact .craftReset (.inr ⟨armed, owed⟩)
  · exact .sent c owed reset

theorem execAnalysisComplete_effect (h : execAnalysisComplete s = .next t) : Effect wf s t := by
  unfold execAnalysisComplete at h
  split at h
  · rename_i state
    split at h
    · rename_i run a running analysis
      cases h
      cases kind : run.kind with
      | check =>
        dsimp only
        cases a.base with
        | none => exact .analysed run _ _ .noBaseline none state running rfl (by simp)
        | some b =>
          refine .analysed run _ _ .judged (some _) state running rfl ?_
          rintro _ ⟨⟩
          simp only [judge]
          split_ifs <;> simp
      | capture =>
        dsimp only
        split
        · exact .analysed run _ _ .noFibre none state running rfl (by simp)
        · exact .commits run _ _ state running kind rfl
    · cases h
      exact .nothing s
  · cases h
    exact .nothing s

theorem writingBlock_eq_some {r : Reservation} {w b : Nat} {data : List Nat} :
    writingBlock r = some (w, b, data) ↔ r.phase = .writing w data ∧ b = r.blocks.getD w 0 := by
  unfold writingBlock
  cases r.phase with
  | held => simp
  | writing v d => simp only [Option.some.injEq, Prod.mk.injEq, ReservePhase.writing.injEq]; grind

theorem execBlockWriteGood_effect (h : execBlockWriteGood s = .next t) : Effect wf s t := by
  unfold execBlockWriteGood at h
  split at h
  · cases h
    exact .nothing s
  rename_i r resv
  split at h
  · cases h
    exact .nothing s
  rename_i w b data hw
  obtain ⟨phase, rfl⟩ := writingBlock_eq_some.mp hw
  dsimp only at h
  split at h
  · rename_i state
    split at h
    · rename_i run held running hheld
      cases h
      split
      · rename_i more
        exact .nextWrite r w data run state running resv phase more
      · rename_i last
        exact .captured r w data run held state running hheld resv phase (Nat.le_of_not_lt last)
    · cases h
      exact .nothing s
  · rename_i state
    cases h
    exact .cutOffGood r w data state resv phase

theorem execBlockWriteFailed_effect (h : execBlockWriteFailed s = .next t) : Effect wf s t := by
  unfold execBlockWriteFailed at h
  split at h
  · cases h
    exact .nothing s
  rename_i r resv
  split at h
  · cases h
    exact .nothing s
  rename_i w b data hw
  obtain ⟨phase, rfl⟩ := writingBlock_eq_some.mp hw
  cases h
  split
  · rename_i state
    exact .storeError r w data state resv phase
  · rename_i state
    exact .cutOffFailed r w data state resv phase

theorem execShotComplete_effect {acq : Nat} {samples : List Sample} (h : execShotComplete acq samples s = .next t) :
    Effect wf s t := by
  unfold execShotComplete at h
  split at h
  · cases h
    exact .nothing s
  rename_i run running
  split at h
  · rename_i state
    split at h
    · cases h
    · rename_i length
      cases h
      dsimp only
      split
      · rename_i more
        exact .shot run samples state.1 running (not_not.mp length) more
      · rename_i last
        exact .lastShot run samples state.1 running (not_not.mp length) (Nat.le_of_not_lt last)
  · cases h
    exact .nothing s

theorem execLiveCheckExpiry_effect {reading : Averaged} (h : execLiveCheckExpiry reading s = .next t) : Effect wf s t := by
  unfold execLiveCheckExpiry at h
  split at h
  · cases h
    exact .nothing s
  rename_i run running
  split at h
  · rename_i state
    cases h
    dsimp only
    split
    · exact .liveLight run _ state running
    · exact .fires run _ state running
  · cases h
    exact .nothing s

theorem execSettled_effect {p : RouteNo} (h : execSettled p s = .next t) : Effect wf s t := by
  unfold execSettled at h
  split at h
  · rename_i moving
    cases h
    split
    · rename_i state
      exact .settled p state.1 state.2
    · exact .arrived (.port p) moving
  · cases h
    exact .nothing s

theorem execHomeReached_effect (h : execHomeReached s = .next t) : Effect wf s t := by
  unfold execHomeReached at h
  split at h
  · rename_i moving
    cases h
    split
    · rename_i state
      exact .homed state.1 state.2
    · exact .arrived .home moving
  · cases h
    exact .nothing s

/-- An event that makes its effect under a condition and is none otherwise. -/
theorem effect_of_ite {p : Prop} [Decidable p] {u : State}
    (h : (Host.Outcome.next (if p then u else s) : Host.Outcome State Fault Refusal) = .next t)
    (hp : p → Effect wf s u) : Effect wf s t := by
  cases h
  split
  · rename_i h
    exact hp h
  · exact .nothing s

theorem execReset_effect {i : Instr} (hi : i = .craftReset ∨ i = .shelfReset ∨ i = .shelfResetRelease ∨ i = .powerOn)
    (h : exec i s = .next t) : Effect wf s t := by
  rcases hi with rfl | rfl | rfl | rfl <;> cases h
  · split
    · exact .nothing s
    · rename_i line
      exact .craftReset (.inl (by simpa using line))
  · split
    · exact .nothing s
    · rename_i line
      exact .shelfReset (by simpa using line)
  · split
    · exact .nothing s
    · rename_i k line
      exact .release k line
  · split
    · rename_i line
      exact .powerOnHeld (by simpa [Option.isSome_iff_ne_none] using line)
    · rename_i line
      exact .powerOn (by simpa using line)

/-- Whatever a command does is one of the effects. -/
theorem exec_effect {i : Instr} (h : exec i s = .next t) : Effect (i.wellFormed = true) s t := by
  have asRequest (c : Client) (tag : Byte) (r : Request) (hi : i = r.on c tag) : Effect (i.wellFormed = true) s t := by
    subst hi
    rw [exec_on_eq] at h
    cases h
    exact onLink_effect c tag r s fun hwf => Request.on_wellFormed c tag r ▸ hwf
  cases i with
  | test c tag route kind cls => exact asRequest c tag (.test route kind cls) rfl
  | cancel c tag id => exact asRequest c tag (.cancel id) rfl
  | mark c tag => exact asRequest c tag .mark rfl
  | readQueue c tag start => exact asRequest c tag (.readQueue start) rfl
  | defineRoute c tag route rev d => exact asRequest c tag (.defineRoute route rev d) rfl
  | deleteRoute c tag route rev => exact asRequest c tag (.deleteRoute route rev) rfl
  | readRoute c tag route => exact asRequest c tag (.readRoute route) rfl
  | readResult c tag route first => exact asRequest c tag (.readResult route first) rfl
  | readTrace c tag acq offset count => exact asRequest c tag (.readTrace acq offset count) rfl
  | readBaseline c tag route offset count e => exact asRequest c tag (.readBaseline route offset count e) rfl
  | hold c tag route => exact asRequest c tag (.hold route) rfl
  | release c tag route => exact asRequest c tag (.release route) rfl
  | clearHolds c tag route => exact asRequest c tag (.clearHolds route) rfl
  | setWindow c tag w d => exact asRequest c tag (.setWindow w d) rfl
  | readWindow c tag w => exact asRequest c tag (.readWindow w) rfl
  | setClock c tag day hour minute start => exact asRequest c tag (.setClock day hour minute start) rfl
  | startClock c tag => exact asRequest c tag .startClock rfl
  | stopClock c tag => exact asRequest c tag .stopClock rfl
  | readClock c tag => exact asRequest c tag .readClock rfl
  | setNotices c tag p => exact asRequest c tag (.setNotices p) rfl
  | readNotices c tag => exact asRequest c tag .readNotices rfl
  | ackNotices c tag a => exact asRequest c tag (.ackNotices a) rfl
  | readLog c tag => exact asRequest c tag .readLog rfl
  | setDevice c tag p => exact asRequest c tag (.setDevice p) rfl
  | readDevice c tag => exact asRequest c tag .readDevice rfl
  | readEquipment c tag => exact asRequest c tag .readEquipment rfl
  | clearEquipment c tag => exact asRequest c tag .clearEquipment rfl
  | resetRequest c tag => exact asRequest c tag .reset rfl
  | characterReceived c b => exact execCharacterReceived_effect h
  | framingError c | gapTimerExpiry c =>
    cases h
    split
    · exact .nothing s
    · rename_i line
      exact .assembly c .hunt (by simpa using line) fun _ => trivial
  | replySent c => exact execReplySent_effect h
  | craftReset | shelfReset | shelfResetRelease | powerOn => exact execReset_effect (by simp) h
  | settled p => exact execSettled_effect h
  | homeReached => exact execHomeReached_effect h
  | switchStuck => exact effect_of_ite h .stuck
  | homeFailed => exact effect_of_ite h fun k => .homeFailed k.1 k.2
  | liveCheckExpiry reading => exact execLiveCheckExpiry_effect h
  | shotComplete acq samples => exact execShotComplete_effect h
  | acqTimeout => exact effect_of_ite h .acqTimeout
  | analysisComplete => exact execAnalysisComplete_effect h
  | blockWriteGood => exact execBlockWriteGood_effect h
  | blockWriteFailed => exact execBlockWriteFailed_effect h
  | laserFaultSignal => cases h; exact .laserFault s
  | pulseTimerExpiry c => cases h; exact .pulseEnds s c
  | tick => cases h; exact .tick s
  | minuteRollover | windowCountExpiry w => exact effect_of_ite h fun _ => .tick s
  | laserFaultEnds => cases h; exact .faultEnds s

/-- A law that holds at the queue of commands cut short and is kept by every effect is kept by every step. -/
theorem step_keeps {P : State → Prop} (hpending : ∀ s rest, P s → P { s with pending := rest })
    (heffect : ∀ {wf s t}, Effect wf s t → P s → P t) (h : P s) (hstep : step s = .next t) : P t := by
  unfold step at hstep
  split at hstep
  · cases hstep
    exact h
  · rename_i i rest _
    exact heffect (exec_effect hstep) (hpending s rest h)

end

end Sys2Proof.Machine
end

section
/-!
The work of a request's owner, said once: one constructor for each thing a request can do to the card beyond its reply.
-/
namespace Sys2Proof.Machine

/-! ### The work of the owners -/

/-- What the owner of a request of code `code` from `c` can do to the card; `wf` says whether the request is a well-formed one. -/
inductive Work (c : Client) (wf : Prop) (code : Nat) : State → State → Prop where
  /-- Nothing: a request that reads, one that is refused, one that finds all as it asks. -/
  | nothing (s : State) : Work c wf code s s
  | test {s : State} (r : RouteNo) (k : TestKind) (cl : TestClass) : Work c wf code s (askTest (bitOf c) r k cl s).2
  /-- A TEST whose entry has left the queue before the reply, which takes a free value for its place. -/
  | testGone {s : State} (r : RouteNo) (k : TestKind) (cl : TestClass) :
      Work c wf code s { (askTest (bitOf c) r k cl s).2 with freeCount := (askTest (bitOf c) r k cl s).2.freeCount + 1 }
  | cancelKept {s : State} (e : Entry) (mem : e ∈ s.queue.entries) (left : del e.reqs (bitOf c) ≠ 0) :
      Work c wf code s (dropFromMarks c e.id (setEntries (s.queue.entries.map fun x =>
        if x.id = e.id then { x with reqs := del e.reqs (bitOf c) } else x) s))
  | cancelWaiting {s : State} (e : Entry) (mem : e ∈ s.queue.entries) (waits : e.running = none) :
      Work c wf code s (leaveQueue e .cancelled 0 (some c) s)
  | cancelRunning {s : State} (e : Entry) (acq : Nat) (mem : e ∈ s.queue.entries) (runs : e.running = some acq)
      (stops : stopsFor acq s = true) :
      Work c wf code s (handOut (leaveQueue e .cancelled 0 (some c) (stopAcquisition s)))
  | markDone {s : State} (free : (perGet s.queue.marks c).length < 4) :
      Work c wf code s (raiseTo (· == c) (.mark (freeMark (perGet s.queue.marks c))) s)
  | markOpens {s : State} (free : (perGet s.queue.marks c).length < 4) (waits : requestedBy c s.queue.entries ≠ []) :
      Work c wf code s { s with queue := { s.queue with
        marks := perSet s.queue.marks c (insertMark
          { number := freeMark (perGet s.queue.marks c), wait := requestedBy c s.queue.entries } (perGet s.queue.marks c)) } }
  | define {s : State} (r : RouteNo) (d : RouteDef) (values : refusedField d = none)
      (zone : deadZone (acqOf d) d.dead + 2 * (judgingOf d).width ≤ d.len)
      (free : (changesAcq s.routes[r] d && routeRunning s r) = false) : Work c wf code s (acceptDefinition c r d s)
  | delete {s : State} (r : RouteNo) (defined : routeStatus s.routes[r] ≠ .unused) (free : routeRunning s r = false) :
      Work c wf code s (acceptDeletion c r s)
  | holds {s : State} (r : RouteNo) (h : HoldSet) : Work c wf code s (changeHolds c r h s)
  | window {s : State} (i : WindowNo) (d : WindowDef) (w : WindowSettings) (values : windowSettingsOf d = some w) :
      Work c wf code s (acceptWindow i w s)
  | setClock {s : State} (day hour minute : Nat) (values : (wf → day < 65536) ∧ hour ≤ 23 ∧ minute ≤ 59)
      (stopped : s.clock.running = false) :
      Work c wf code s (logWrite (.clock c .set) { s with clock := { s.clock with now := { day := day, hour := hour, minute := minute, second := 0 } } })
  | startClock {s : State} (stopped : s.clock.running = false) : Work c wf code s (startClock c s)
  /-- A SET_CLOCK that starts the clock too (R141). -/
  | setAndStart {s t : State} (set : Work c wf code s t) (stopped : t.clock.running = false) : Work c wf code s (Machine.startClock c t)
  | stopClock {s : State} (runs : s.clock.running = true) :
      Work c wf code s (changeWindows .clockStopped (mapTable (fun w => { w with remaining := none }) s.windows)
        (logWrite (.clock c .stopped) { s with clock := { s.clock with running := false } }))
  | setNotices {s : State} (p : NoticeParts) (new : NoticeSettings) (t : Nat)
      (settings : noticeSettingsOf p (perGet s.notices c).settings = some new)
      (limit : partOf positiveByteOf (perGet s.log.readers c).threshold p.threshold = some t) :
      Work c wf code s (setReader c { perGet s.log.readers c with threshold := t }
        (setNotice c (applySettings new (perGet s.notices c)) s))
  /-- A SET_NOTICES whose carried threshold makes its LOG raise (R173). -/
  | thresholdReached {s t : State} (set : Work c wf code s t) : Work c wf code s (raiseTo (· == c) .log t)
  | clearNotices {s : State} (p : Pending) : Work c wf code s (setNotice c (clearTo p (perGet s.notices c)) s)
  | readLog {s : State} : Work c wf code s (setReader c { perGet s.log.readers c with
      cursor := ((perGet s.log.readers c).cursor
        + ((unreadEntries s.log (perGet s.log.readers c)).take 8).length) % 65536, overrun := false } s)
  | setDevice {s : State} (p : DeviceParts) (d : Device) (values : deviceOf p s.device = some d)
      (same : d.barred = s.device.barred) : Work c wf code s { s with device := d }
  | setBarred {s : State} (p : DeviceParts) (d : Device) (values : deviceOf p s.device = some d) :
      Work c wf code s (routeReport (isClosed s) { s with device := d })
  | clearEquipment {s : State} (state : s.engine.state ≠ .faulted) : Work c wf code s { s with equip := none }
  | leaveFaulted {s : State} (state : s.engine.state = .faulted) : Work c wf code s (leaveFaulted { s with equip := none })
  | arm {s : State} (sender : c = .cr) (reset : code = 0x1C) : Work c wf code s { s with craftArmed := true }

/-! ### Every owner does one of these -/

section
variable {c : Client} {wf : Prop} {code : Nat} {s : State}

/-- The reply to a TEST takes a free value where its entry has left the queue, and changes nothing else. -/
theorem testReply_state (id : Nat) (word : TestWord) (s : State) :
    (testReply id word s).1 = s ∨ (testReply id word s).1 = { s with freeCount := s.freeCount + 1 } := by
  unfold testReply
  cases positionOf id s with
  | some p => exact .inl rfl
  | none => exact .inr rfl

theorem ownTest_work (route kind cls : Nat) : Work c wf code s (ownTest c route kind cls s).1 := by
  unfold ownTest
  split
  · rename_i r k cl _ _ _
    have h := Work.test (c := c) (wf := wf) (code := code) (s := s) r k cl
    have hgone := Work.testGone (c := c) (wf := wf) (code := code) (s := s) r k cl
    generalize askTest (bitOf c) r k cl s = answer at h hgone ⊢
    obtain ⟨_ | _ | _ | _ | ⟨id, word⟩, t⟩ := answer
    case placed =>
      rcases testReply_state id word t with hst | hst
      · exact hst.symm ▸ h
      · exact hst.symm ▸ hgone
    all_goals exact h
  · exact .nothing s

theorem ownCancel_work (id : Nat) : Work c wf code s (ownCancel c id s).1 := by
  unfold ownCancel
  split
  · exact .nothing s
  rename_i e he
  have mem := List.mem_of_find?_eq_some he
  obtain rfl : e.id = id := by simpa using List.find?_some he
  split
  · exact .nothing s
  dsimp only
  split
  · rename_i left
    exact .cancelKept e mem left
  · cases runs : e.running with
    | none =>
      dsimp only
      exact .cancelWaiting e mem runs
    | some acq =>
      dsimp only
      split
      · rename_i stops
        dsimp only
        exact .cancelRunning e acq mem runs stops
      · exact .nothing s

theorem ownMark_work : Work c wf code s (ownMark c s).1 := by
  simp only [ownMark]
  split
  · exact .nothing s
  · rename_i free
    split
    · exact .markDone (Nat.lt_of_not_le free)
    · rename_i waits
      exact .markOpens (Nat.lt_of_not_le free) waits

theorem ownDefineRoute_work (route rev : Nat) (d : RouteDef) : Work c wf code s (ownDefineRoute c route rev d s).1 := by
  unfold ownDefineRoute
  split
  · exact .nothing s
  dsimp only
  split
  · exact .nothing s
  split
  · exact .nothing s
  rename_i r _ _ _ values
  split
  · exact .nothing s
  rename_i zone
  split
  · exact .nothing s
  · rename_i free
    exact .define r d values (Nat.le_of_not_lt zone) (by simpa using free)

theorem ownDeleteRoute_work (route rev : Nat) : Work c wf code s (ownDeleteRoute c route rev s).1 := by
  unfold ownDeleteRoute
  split
  · exact .nothing s
  rename_i r _
  dsimp only
  split
  · exact .nothing s
  rename_i defined
  split
  · exact .nothing s
  split
  · exact .nothing s
  · rename_i free
    exact .delete r defined (by simpa using free)

theorem ownHold_work (route : Nat) : Work c wf code s (ownHold c route s).1 := by
  unfold ownHold
  split
  · exact .nothing s
  · dsimp only
    split
    · exact .nothing s
    · exact .holds _ _

theorem ownRelease_work (route : Nat) : Work c wf code s (ownRelease c route s).1 := by
  unfold ownRelease
  split
  · exact .nothing s
  · dsimp only
    split
    · exact .nothing s
    · exact .holds _ _

theorem ownClearHolds_work (route : Nat) : Work c wf code s (ownClearHolds c route s).1 := by
  unfold ownClearHolds
  split
  · exact .nothing s
  · dsimp only
    split
    · exact .nothing s
    · exact .holds _ _

theorem ownSetWindow_work (i : Nat) (d : WindowDef) : Work c wf code s (ownSetWindow i d s).1 := by
  unfold ownSetWindow
  split
  · rename_i values
    exact .window _ d _ values
  · exact .nothing s

theorem ownSetClock_work (day hour minute : Nat) (start : Bool) (fits : wf → day < 65536) :
    Work c wf code s (ownSetClock c day hour minute start s).1 := by
  unfold ownSetClock
  split
  · exact .nothing s
  rename_i values
  split
  · exact .nothing s
  rename_i stopped
  have set : Work c wf code s (logWrite (.clock c .set) { s with clock := { s.clock with now := { day := day, hour := hour, minute := minute, second := 0 } } }) :=
    .setClock day hour minute ⟨fits, by omega, by omega⟩ (by simpa using stopped)
  cases start with
  | true => exact .setAndStart set (by simpa using stopped)
  | false => exact set

theorem ownStartClock_work : Work c wf code s (ownStartClock c s).1 := by
  simp only [ownStartClock]
  split
  · exact .nothing s
  · rename_i stopped
    exact .startClock (by simpa using stopped)

theorem ownStopClock_work : Work c wf code s (ownStopClock c s).1 := by
  unfold ownStopClock
  split
  · rename_i runs
    exact .stopClock runs
  · exact .nothing s

theorem ownSetNotices_work (p : NoticeParts) : Work c wf code s (ownSetNotices c p s).1 := by
  unfold ownSetNotices
  dsimp only
  split
  · rename_i new t settings limit
    have set := Work.setNotices (wf := wf) (code := code) p new t settings limit
    dsimp only
    split
    · exact .thresholdReached set
    · exact set
  · exact .nothing s

theorem ownReadNotices_work : Work c wf code s (ownReadNotices c s).1 := by
  unfold ownReadNotices
  dsimp only
  split
  · exact .clearNotices _
  · exact .nothing s

theorem ownSetDevice_work (p : DeviceParts) : Work c wf code s (ownSetDevice p s).1 := by
  unfold ownSetDevice
  split
  · exact .nothing s
  · rename_i d values
    dsimp only
    split
    · rename_i same
      exact .setDevice p d values same
    · exact .setBarred p d values

theorem ownClearEquipment_work : Work c wf code s (ownClearEquipment c s).1 := by
  unfold ownClearEquipment
  dsimp only
  split
  · rename_i state
    split
    · exact .leaveFaulted state
    · exact .nothing s
  · rename_i state
    exact .clearEquipment state

theorem ownReadQueue_state (start : Nat) : (ownReadQueue c start s).1 = s := by
  unfold ownReadQueue
  split <;> rfl

theorem ownReadRoute_state (route : Nat) : (ownReadRoute route s).1 = s := by
  unfold ownReadRoute
  split <;> rfl

theorem ownReadResult_state (route : Nat) (first : Option Nat) : (ownReadResult route first s).1 = s := by
  unfold ownReadResult
  split
  · rfl
  · split_ifs <;> rfl

theorem ownReadTrace_state (acq offset count : Nat) : (ownReadTrace acq offset count s).1 = s := by
  unfold ownReadTrace
  split
  · rfl
  · split
    · split_ifs <;> rfl
    · rfl

theorem ownReadBaseline_state (route offset count : Nat) (expected : Option Nat) :
    (ownReadBaseline route offset count expected s).1 = s := by
  unfold ownReadBaseline
  split
  · rfl
  dsimp only
  split
  · rfl
  split
  · rfl
  split
  · rfl
  · split_ifs <;> rfl

theorem ownReadWindow_state (i : Nat) : (ownReadWindow i s).1 = s := by
  unfold ownReadWindow
  split <;> rfl

/-- A request that only reads leaves the card as it is. -/
theorem work_of_read {t : State} (h : t = s) : Work c wf code s t := by
  rw [h]
  exact .nothing s

/-- Whatever the owner of a request does, from a client that may send it, is one of these. -/
theorem ownerOf_work (r : Request) (s : State) (may : permitted r.code c = true) (fits : wf → r.wellFormed = true) :
    Work c wf r.code s (ownerOf c r s).1 := by
  cases r with
  | test route kind cls => exact ownTest_work route kind cls
  | cancel id => exact ownCancel_work id
  | mark => exact ownMark_work
  | readQueue start => exact work_of_read (ownReadQueue_state start)
  | defineRoute route rev d => exact ownDefineRoute_work route rev d
  | deleteRoute route rev => exact ownDeleteRoute_work route rev
  | readRoute route => exact work_of_read (ownReadRoute_state route)
  | readResult route first => exact work_of_read (ownReadResult_state route first)
  | readTrace acq offset count => exact work_of_read (ownReadTrace_state acq offset count)
  | readBaseline route offset count e => exact work_of_read (ownReadBaseline_state route offset count e)
  | hold route => exact ownHold_work route
  | release route => exact ownRelease_work route
  | clearHolds route => exact ownClearHolds_work route
  | setWindow w d => exact ownSetWindow_work w d
  | readWindow w => exact work_of_read (ownReadWindow_state w)
  | setClock day hour minute start =>
    refine ownSetClock_work day hour minute start fun h => ?_
    have hf := fits h
    simp only [Request.wellFormed, fits2, Bool.and_eq_true, decide_eq_true_eq] at hf
    exact hf.1.1
  | startClock => exact ownStartClock_work
  | stopClock => exact ownStopClock_work
  | readClock | readDevice | readEquipment => exact .nothing s
  | setNotices p => exact ownSetNotices_work p
  | readNotices => exact ownReadNotices_work
  | ackNotices a => exact .clearNotices _
  | readLog => exact .readLog
  | setDevice p => exact ownSetDevice_work p
  | clearEquipment => exact ownClearEquipment_work
  | reset =>
    refine .arm ?_ rfl
    cases c with
    | cr => rfl
    | _ => simp [permitted, craftOnly, Request.code] at may

end

end Sys2Proof.Machine
end

section
/-!
Frames of the larger operations: what a definition, a deletion, a change of holds or windows, a laser fault, a commit and the
end of a reset leave as it was, each up to the one field it is there to change.
-/
namespace Sys2Proof.Machine

/-! ### Reports and findings -/

/-- The route's condition goes to UNKNOWN with its report, or is UNKNOWN already (R134). -/
theorem setUnknown_cases (r : RouteNo) (c : Client) (s : State) :
    (s.faults[r].cond = .unknown ∧ setUnknown r c s = setCand r none s)
      ∨ (s.faults[r].cond ≠ .unknown ∧ setUnknown r c s = reportChange r .unknown none (some c)
          (setFault r (FaultRecord.unknownAt s.clock.now) (setCand r none s))) := by
  unfold setUnknown
  by_cases h : s.faults[r].cond = .unknown
  · exact .inl ⟨h, if_pos h⟩
  · exact .inr ⟨h, if_neg h⟩

theorem setUnknown_finishOnly (r : RouteNo) (c : Client) (s : State) : FinishOnly s (setUnknown r c s) := by
  rcases setUnknown_cases r c s with ⟨-, h⟩ | ⟨-, h⟩ <;> rw [h]
  · exact ⟨rfl, rfl, rfl, rfl, rfl, rfl, rfl, rfl, rfl, rfl⟩
  · exact ⟨rfl, rfl, rfl, rfl, rfl, rfl, rfl, rfl, rfl, rfl⟩

/-- A capture's commit makes the route CLEAR, with a report where it was not (R133). -/
theorem captureClear_cases (r : RouteNo) (id acq : Nat) (t : Time) (s : State) :
    (s.faults[r].cond = .clear
        ∧ captureClear r id acq t s = setFault r (capturedRecord (some id) t acq) (setCand r none s))
      ∨ (s.faults[r].cond ≠ .clear ∧ captureClear r id acq t s
          = reportChange r .clear (some (id, .capture)) none
              (setFault r (capturedRecord (some id) t acq) (setCand r none s))) := by
  unfold captureClear
  by_cases h : s.faults[r].cond = .clear
  · exact .inl ⟨h, if_pos h⟩
  · exact .inr ⟨h, if_neg h⟩

theorem captureClear_finishOnly (r : RouteNo) (id acq : Nat) (t : Time) (s : State) :
    FinishOnly s (captureClear r id acq t s) := by
  rcases captureClear_cases r id acq t s with ⟨-, h⟩ | ⟨-, h⟩ <;> rw [h]
  · exact ⟨rfl, rfl, rfl, rfl, rfl, rfl, rfl, rfl, rfl, rfl⟩
  · exact ⟨rfl, rfl, rfl, rfl, rfl, rfl, rfl, rfl, rfl, rfl⟩

/-! ### The Route Table -/

theorem freeBlocks_finishOnly (bs : List Nat) (s : State) : FinishOnly s (freeBlocks bs s) :=
  ⟨rfl, rfl, rfl, rfl, rfl, rfl, rfl, rfl, rfl, rfl⟩

theorem setCand_finishOnly (r : RouteNo) (k : Option Candidate) (s : State) : FinishOnly s (setCand r k s) :=
  ⟨rfl, rfl, rfl, rfl, rfl, rfl, rfl, rfl, rfl, rfl⟩

theorem setRecord_finishOnly (r : RouteNo) (t : Option TestRecord) (s : State) : FinishOnly s (setRecord r t s) :=
  ⟨rfl, rfl, rfl, rfl, rfl, rfl, rfl, rfl, rfl, rfl⟩

/-- An accepted definition discards the baseline, whose blocks go free and whose condition goes to UNKNOWN, or keeps what
baseline there is (R70 to R72). -/
theorem acceptDefinition_cases (c : Client) (r : RouteNo) (d : RouteDef) (s : State) :
    ((changesAcq s.routes[r] d = true ∧ routeStatus s.routes[r] = .baselined)
        ∧ acceptDefinition c r d s = setUnknown r c (logWrite (.routeChange r c .defined)
            (freeBlocks (baselineBlocks s.routes[r]) (setRoute r (definedEntry s.routes[r] d) s))))
      ∨ (¬(changesAcq s.routes[r] d = true ∧ routeStatus s.routes[r] = .baselined)
        ∧ acceptDefinition c r d s = setCand r none (logWrite (.routeChange r c .defined)
            (setRoute r (definedEntry s.routes[r] d) s))) := by
  unfold acceptDefinition
  by_cases h : changesAcq s.routes[r] d = true ∧ routeStatus s.routes[r] = .baselined
  · have hd : (changesAcq s.routes[r] d && (routeStatus s.routes[r] == .baselined)) = true := by rw [h.1, h.2]; rfl
    simp only [hd]
    exact .inl ⟨h, rfl⟩
  · have hd : (changesAcq s.routes[r] d && (routeStatus s.routes[r] == .baselined)) = false := by
      simpa only [Bool.and_eq_true, beq_iff_eq, Bool.not_eq_true, Bool.eq_false_iff, ne_eq] using h
    simp only [hd]
    exact .inr ⟨h, rfl⟩

theorem acceptDefinition_finishOnly (c : Client) (r : RouteNo) (d : RouteDef) (s : State) :
    FinishOnly (setRoute r (definedEntry s.routes[r] d) s) (acceptDefinition c r d s) := by
  rcases acceptDefinition_cases c r d s with ⟨-, h⟩ | ⟨-, h⟩ <;> rw [h]
  · exact ((freeBlocks_finishOnly _ _).trans (logWrite_queueOnly _ _).port.finish).trans (setUnknown_finishOnly _ _ _)
  · exact (logWrite_queueOnly _ _).port.finish.trans (setCand_finishOnly _ _ _)

/-- What the leaving of each entry keeps is kept when the WAITING entries of a route leave the queue (R120). -/
theorem leaveAll_keeps {P : State → Prop} (out : TestOutcome)
    (hl : ∀ e s, P s → P (leaveQueue e out e.reqs none s)) :
    ∀ (es : List Entry) (s : State), P s → P (es.foldl (fun s e => leaveQueue e out e.reqs none s) s)
  | [], _, h => h
  | e :: es, s, h => by
    rw [List.foldl_cons]
    exact leaveAll_keeps out hl es _ (hl e s h)

theorem removeWaiting_keeps {P : State → Prop} (r : RouteNo)
    (hl : ∀ e s, P s → P (leaveQueue e .routeDeleted e.reqs none s)) (s : State) (h : P s) : P (removeWaiting r s) :=
  leaveAll_keeps .routeDeleted hl _ s h

theorem removeWaiting_queueOnly (r : RouteNo) (s : State) : QueueOnly s (removeWaiting r s) :=
  removeWaiting_keeps (P := QueueOnly s) r (fun _ _ h => h.trans (leaveQueue_queueOnly _ _ _ _ _)) s (.refl s)

/-- The entry that an accepted deletion leaves (R74). -/
def deletedEntry (e : RouteEntry) : RouteEntry := { e with revision := nextRevision e, body := none }

theorem acceptDeletion_eq (c : Client) (r : RouteNo) (s : State) :
    acceptDeletion c r s = removeWaiting r (setUnknown r c (logWrite (.routeChange r c .deleted)
      (freeBlocks (baselineBlocks s.routes[r]) (setRecord r none (setRoute r (deletedEntry s.routes[r]) s))))) := rfl

theorem acceptDeletion_finishOnly (c : Client) (r : RouteNo) (s : State) :
    FinishOnly (setRoute r (deletedEntry s.routes[r]) s) (acceptDeletion c r s) := by
  rw [acceptDeletion_eq]
  exact ((((setRecord_finishOnly _ _ _).trans (freeBlocks_finishOnly _ _)).trans
    (logWrite_queueOnly _ _).port.finish).trans (setUnknown_finishOnly _ _ _)).trans
    (removeWaiting_queueOnly _ _).port.finish

/-- A change of a hold set is logged, and reported where the set was or becomes empty (R77 to R79, R82). -/
theorem changeHolds_cases (c : Client) (r : RouteNo) (h : HoldSet) (s : State) :
    ((s.routes[r].holds = 0 ∨ h = 0)
        ∧ changeHolds c r h s = routeReport (isClosed s)
            (logWrite (.holdChange r c h) (setRoute r { s.routes[r] with holds := h } s)))
      ∨ ((s.routes[r].holds ≠ 0 ∧ h ≠ 0)
        ∧ changeHolds c r h s = logWrite (.holdChange r c h) (setRoute r { s.routes[r] with holds := h } s)) := by
  unfold changeHolds
  by_cases hz : s.routes[r].holds = 0 ∨ h = 0
  · exact .inl ⟨hz, if_pos hz⟩
  · exact .inr ⟨not_or.mp hz, if_neg hz⟩

theorem changeHolds_portOnly (c : Client) (r : RouteNo) (h : HoldSet) (s : State) :
    PortOnly (setRoute r { s.routes[r] with holds := h } s) (changeHolds c r h s) := by
  rcases changeHolds_cases c r h s with ⟨-, k⟩ | ⟨-, k⟩ <;> rw [k]
  · exact (logWrite_queueOnly _ _).port.trans (routeReport_portOnly _ _)
  · exact (logWrite_queueOnly _ _).port

/-! ### The clock and the windows -/

theorem logWrites_queueOnly (bs : List LogBody) (s : State) : QueueOnly s (logWrites bs s) :=
  logWrites_keeps (P := QueueOnly s) (fun _ _ h => h.trans (logWrite_queueOnly _ _)) bs s (.refl s)

/-- The windows take their new states; what opened or closed is logged, noticed and reported (R149). -/
theorem changeWindows_cases (cause : CloseCause) (new : Vector Window 8) (s : State) :
    (windowChanges cause s.windows new = [] ∧ changeWindows cause new s = { s with windows := new })
      ∨ (windowChanges cause s.windows new ≠ [] ∧ changeWindows cause new s
          = coverageReport (raiseAll .window (logWrites (windowChanges cause s.windows new) { s with windows := new }))) := by
  unfold changeWindows
  by_cases h : windowChanges cause s.windows new = []
  · exact .inl ⟨h, if_pos h⟩
  · exact .inr ⟨h, if_neg h⟩

theorem changeWindows_portOnly (cause : CloseCause) (new : Vector Window 8) (s : State) :
    PortOnly { s with windows := new } (changeWindows cause new s) := by
  rcases changeWindows_cases cause new s with ⟨-, h⟩ | ⟨-, h⟩ <;> rw [h]
  · exact .refl _
  · exact ((logWrites_queueOnly _ _).trans (raiseTo_queueOnly _ _ _)).port.trans (coverageReport_portOnly _)

/-- The windows after an accepted edit of window `i` (R152, R154). -/
def editedWindows (i : WindowNo) (w : WindowSettings) (s : State) : Vector Window 8 :=
  s.windows.set i (editedWindow w s.windows[i])

/-- An edit closes the window, changes the routes of an OPEN one, or does neither (R152, R154). -/
theorem acceptWindow_cases (i : WindowNo) (w : WindowSettings) (s : State) :
    ((s.windows[i].remaining.isSome = true ∧ w.enabled = false)
        ∧ acceptWindow i w s = changeWindows .edited (editedWindows i w s) s)
      ∨ ((s.windows[i].remaining.isSome = true ∧ w.enabled = true ∧ s.windows[i].settings.routes ≠ w.routes)
        ∧ acceptWindow i w s = coverageReport { s with windows := editedWindows i w s })
      ∨ ((s.windows[i].remaining = none ∨ w.enabled = true ∧ s.windows[i].settings.routes = w.routes)
        ∧ acceptWindow i w s = { s with windows := editedWindows i w s }) := by
  simp only [acceptWindow, editedWindows]
  cases hr : s.windows[i].remaining with
  | none => exact .inr (.inr ⟨.inl rfl, by simp⟩)
  | some n =>
    cases he : w.enabled with
    | false => exact .inl ⟨⟨rfl, rfl⟩, by simp⟩
    | true =>
      by_cases hs : s.windows[i].settings.routes = w.routes
      · exact .inr (.inr ⟨.inr ⟨rfl, hs⟩, by simp only [hs, bne_self_eq_false]; rfl⟩)
      · exact .inr (.inl ⟨⟨rfl, rfl, hs⟩, by simp only [bne_iff_ne.mpr hs]; rfl⟩)

theorem acceptWindow_portOnly (i : WindowNo) (w : WindowSettings) (s : State) :
    PortOnly { s with windows := editedWindows i w s } (acceptWindow i w s) := by
  rcases acceptWindow_cases i w s with ⟨-, h⟩ | ⟨-, h⟩ | ⟨-, h⟩ <;> rw [h]
  · exact changeWindows_portOnly _ _ _
  · exact coverageReport_portOnly _
  · exact .refl _

/-- The windows after a minute rollover that leaves the clock at `t` (R147, R148). -/
def rolledWindows (t : Time) (s : State) : Vector Window 8 := mapTable (windowAtRollover t) s.windows

/-- What a tick does: nothing to a STOPPED clock; one second more; or a minute rollover too, reported unless the shelf reset
line holds the card (R139, R149, R158). -/
theorem tickClock_cases (s : State) :
    (s.clock.running = false ∧ tickClock s = s)
      ∨ (s.clock.running = true ∧ (nextSecond s.clock.now).second ≠ 0
          ∧ tickClock s = { s with clock := { s.clock with now := nextSecond s.clock.now } })
      ∨ (s.clock.running = true ∧ (nextSecond s.clock.now).second = 0 ∧ s.shelf ≠ none
          ∧ tickClock s = { s with
              clock := { s.clock with now := nextSecond s.clock.now }
              windows := rolledWindows (nextSecond s.clock.now) s })
      ∨ (s.clock.running = true ∧ (nextSecond s.clock.now).second = 0 ∧ s.shelf = none
          ∧ tickClock s = changeWindows .expired (rolledWindows (nextSecond s.clock.now) s)
              { s with clock := { s.clock with now := nextSecond s.clock.now } }) := by
  unfold tickClock
  cases hr : s.clock.running with
  | false => exact .inl ⟨rfl, rfl⟩
  | true =>
    refine .inr ?_
    by_cases hz : (nextSecond s.clock.now).second = 0
    · refine .inr ?_
      simp only [hz, minuteRolls]
      cases hs : s.shelf with
      | none => exact .inr ⟨trivial, trivial, rfl, rfl⟩
      | some k => exact .inl ⟨trivial, trivial, by simp, rfl⟩
    · exact .inl ⟨rfl, hz, by simp [hz]⟩

/-! ### The engine -/

/-- What the laser-fault signal does to the engine in each of its states (R19). -/
theorem faultEngine_cases (s : State) :
    (canStop s.engine.state = true
        ∧ faultEngine s = concludeIn .faulted (finishEntry .laserFault (some .laserFault) none none (frontOff s)))
      ∨ ((s.engine.state = .analysing ∨ s.engine.state = .committing)
        ∧ faultEngine s = { equipError .laserFault (s.engine.running.map Running.route) s with
            engine := { s.engine with marker := true } })
      ∨ ((s.engine.state = .idle ∨ s.engine.state = .recovering ∨ s.engine.state = .faulted)
        ∧ faultEngine s = { equipError .laserFault none s with
            engine := { s.engine with state := .faulted, timer := none } }) := by
  unfold faultEngine
  cases h : s.engine.state with
  | switching | liveCheck | firing => exact .inl ⟨rfl, rfl⟩
  | analysing | committing => exact .inr (.inl ⟨by simp, rfl⟩)
  | idle | recovering | faulted => exact .inr (.inr ⟨by simp, rfl⟩)

/-- The laser goes off; the engine takes the signal unless the shelf reset line holds the card (R19, R24). -/
theorem laserFault_cases (s : State) :
    (s.shelf ≠ none ∧ laserFault s = { s with front := { s.front with laser := false } })
      ∨ (s.shelf = none ∧ laserFault s = faultEngine { s with front := { s.front with laser := false } }) := by
  unfold laserFault
  cases h : s.shelf with
  | none => exact .inr ⟨rfl, rfl⟩
  | some k => exact .inl ⟨by simp, rfl⟩

theorem concludeIn_finishEntry_finishOnly (st : EngineState) (out : TestOutcome) (err : Option EquipKind)
    (held : Option HeldAnalysis) (j : Option Judgement) (s : State) :
    FinishOnly s (concludeIn st (finishEntry out err held j s)) :=
  (finishEntry_finishOnly out err held j s).trans (concludeIn_portOnly st _).finish

theorem faultEngine_finishOnly (s : State) : FinishOnly s (faultEngine s) := by
  rcases faultEngine_cases s with ⟨-, h⟩ | ⟨-, h⟩ | ⟨-, h⟩ <;> rw [h]
  · exact (frontOff_portOnly s).finish.trans (concludeIn_finishEntry_finishOnly _ _ _ _ _ _)
  · exact ⟨rfl, rfl, rfl, rfl, rfl, rfl, rfl, rfl, rfl, rfl⟩
  · exact ⟨rfl, rfl, rfl, rfl, rfl, rfl, rfl, rfl, rfl, rfl⟩

theorem laserFault_finishOnly (s : State) : FinishOnly s (laserFault s) := by
  rcases laserFault_cases s with ⟨-, h⟩ | ⟨-, h⟩ <;> rw [h]
  · exact ⟨rfl, rfl, rfl, rfl, rfl, rfl, rfl, rfl, rfl, rfl⟩
  · exact (faultEngine_finishOnly _).after ⟨rfl, rfl, rfl, rfl, rfl, rfl, rfl, rfl, rfl, rfl⟩

/-- The state in which FIRING starts: the laser on, the accumulator cleared (R10). -/
def firingState (len : Nat) (s : State) : State :=
  { s with
    front := { s.front with laser := true }
    engine := { s.engine with
      state := .firing, timer := some .shot, shotCount := 0, acc := List.replicate len { sum := 0, sat := false } } }

/-- FIRING starts, or a laser fault that stands raises its signal at once (R10, R19). -/
theorem startFiring_cases (len : Nat) (s : State) :
    (s.front.fault = false ∧ startFiring len s = firingState len s)
      ∨ (s.front.fault = true ∧ startFiring len s = laserFault (firingState len s)) := by
  unfold startFiring firingState
  cases s.front.fault with
  | false => exact .inl ⟨rfl, rfl⟩
  | true => exact .inr ⟨rfl, rfl⟩

theorem startFiring_finishOnly (len : Nat) (s : State) : FinishOnly s (startFiring len s) := by
  rcases startFiring_cases len s with ⟨-, h⟩ | ⟨-, h⟩ <;> rw [h]
  · exact ⟨rfl, rfl, rfl, rfl, rfl, rfl, rfl, rfl, rfl, rfl⟩
  · exact (laserFault_finishOnly _).after ⟨rfl, rfl, rfl, rfl, rfl, rfl, rfl, rfl, rfl, rfl⟩

/-! ### Commits, resets and writes that a reset cut off -/

/-- The entry of a route after a capture's commit (R75, R91). -/
def committedEntry (e : RouteEntry) (b : RouteBody) (r : Reservation) (h : HeldAnalysis) : RouteEntry :=
  { e with
    revision := (e.revision + 1) % 65536
    body := some { b with baseline := some { blocks := r.blocks, eb := h.fields.em, time := h.time, acq := r.acq } } }

/-- The state in which the reservation has become the block list of the route, before the tracker takes the commit (R91). -/
def committedState (route : RouteNo) (b : RouteBody) (r : Reservation) (h : HeldAnalysis) (s : State) : State :=
  setRoute route (committedEntry s.routes[route] b r h) s

theorem baselineBlocks_eq (e : RouteEntry) : baselineBlocks e = (e.body.bind RouteBody.baseline).elim [] Baseline.blocks := by
  unfold baselineBlocks
  cases e.body.bind RouteBody.baseline <;> rfl

/-- A commit of an UNUSED route returns the reservation; any other makes it the route's block list and frees the old blocks
(R91, R133). -/
theorem commitCapture_cases (run : Running) (r : Reservation) (h : HeldAnalysis) (s : State) :
    (s.routes[run.route].body = none ∧ commitCapture run r h s
        = { s with store := { s.store with free := giveBack r.blocks s.store.free, resv := none } })
      ∨ ∃ b, s.routes[run.route].body = some b ∧ commitCapture run r h s
          = captureClear run.route run.id r.acq h.time
              { committedState run.route b r h s with
                store := { s.store with
                  free := giveBack (baselineBlocks s.routes[run.route]) s.store.free, resv := none } } := by
  unfold commitCapture
  cases hb : s.routes[run.route].body with
  | none => exact .inl ⟨rfl, rfl⟩
  | some b =>
    refine .inr ⟨b, rfl, ?_⟩
    have hold : baselineBlocks s.routes[run.route] = (match b.baseline with | some x => x.blocks | none => []) := by
      rw [baselineBlocks_eq, hb, Option.bind_some]
      cases b.baseline <;> rfl
    rw [hold]
    dsimp only
    cases b.baseline <;> rfl

theorem commitCapture_finishOnly (run : Running) (r : Reservation) (h : HeldAnalysis) (s : State) :
    (s.routes[run.route].body = none ∧ FinishOnly s (commitCapture run r h s))
      ∨ ∃ b, s.routes[run.route].body = some b
          ∧ FinishOnly (committedState run.route b r h s) (commitCapture run r h s) := by
  rcases commitCapture_cases run r h s with ⟨hb, k⟩ | ⟨b, hb, k⟩ <;> rw [k]
  · exact .inl ⟨hb, rfl, rfl, rfl, rfl, rfl, rfl, rfl, rfl, rfl, rfl⟩
  · exact .inr ⟨b, hb, (captureClear_finishOnly _ _ _ _ _).after ⟨rfl, rfl, rfl, rfl, rfl, rfl, rfl, rfl, rfl, rfl⟩⟩

/-- The card in service again, before the homing (R136, R175). -/
def inService (k : ResetKind) (s : State) : State := logWrite (.reset k) (repairConditions { s with shelf := none })

theorem endReset_eq (k : ResetKind) (s : State) :
    endReset k s = if writeInFlight s then inService k s else homeSwitch (inService k s) := rfl

theorem inService_finishOnly (k : ResetKind) (s : State) : FinishOnly { s with shelf := none } (inService k s) :=
  ⟨rfl, rfl, rfl, rfl, rfl, rfl, rfl, rfl, rfl, rfl⟩

theorem endReset_finishOnly (k : ResetKind) (s : State) : FinishOnly { s with shelf := none } (endReset k s) := by
  rw [endReset_eq]
  split
  · exact inService_finishOnly k s
  · exact (inService_finishOnly k s).trans (homeSwitch_portOnly _).finish

theorem cutOffEnds_portOnly (s : State) : PortOnly { s with trace := .empty } (cutOffEnds s) :=
  resumeHoming_portOnly _

/-! ### The start of a reset -/

section
variable (s : State)

@[simp] theorem beginReset_switch : (beginReset s).switch = s.switch := returnReservation_switch s
@[simp] theorem beginReset_device : (beginReset s).device = s.device := (returnReservation_portOnly s).device
@[simp] theorem beginReset_routes : (beginReset s).routes = s.routes := (returnReservation_portOnly s).routes
@[simp] theorem beginReset_faults : (beginReset s).faults = s.faults := (returnReservation_portOnly s).faults
@[simp] theorem beginReset_clock : (beginReset s).clock = s.clock := (returnReservation_portOnly s).clock
@[simp] theorem beginReset_windows : (beginReset s).windows = s.windows := (returnReservation_portOnly s).windows
@[simp] theorem beginReset_shelf : (beginReset s).shelf = s.shelf := (returnReservation_portOnly s).shelf
@[simp] theorem beginReset_freeCount : (beginReset s).freeCount = s.freeCount := (returnReservation_portOnly s).freeCount
@[simp] theorem beginReset_pending : (beginReset s).pending = s.pending := (returnReservation_portOnly s).pending
@[simp] theorem beginReset_store : (beginReset s).store = (returnReservation s).store := rfl
@[simp] theorem beginReset_engine : (beginReset s).engine = Engine.waiting := rfl
@[simp] theorem beginReset_queue : (beginReset s).queue = Queue.empty := rfl
@[simp] theorem beginReset_notices : (beginReset s).notices = PerClient.const NoticeState.reset := rfl
@[simp] theorem beginReset_links : (beginReset s).links = PerClient.const Link.reset := rfl
@[simp] theorem beginReset_log :
    (beginReset s).log = { ring := [], next := 0, readers := PerClient.const LogReader.reset } := rfl
@[simp] theorem beginReset_cands : (beginReset s).cands = Vector.replicate 48 none := rfl
@[simp] theorem beginReset_records : (beginReset s).records = Vector.replicate 48 none := rfl
@[simp] theorem beginReset_equip : (beginReset s).equip = none := rfl
@[simp] theorem beginReset_craftArmed : (beginReset s).craftArmed = false := rfl
@[simp] theorem beginReset_trace : (beginReset s).trace = if writeInFlight s then s.trace else .empty := rfl
@[simp] theorem beginReset_front :
    (beginReset s).front = { s.front with laser := false, checking := false, record := none } := by
  simp [beginReset]

@[simp] theorem powerLoss_device : (powerLoss s).device = s.device := beginReset_device s
@[simp] theorem powerLoss_routes : (powerLoss s).routes = s.routes := beginReset_routes s
@[simp] theorem powerLoss_faults : (powerLoss s).faults = s.faults := beginReset_faults s
@[simp] theorem powerLoss_shelf : (powerLoss s).shelf = s.shelf := beginReset_shelf s
@[simp] theorem powerLoss_pending : (powerLoss s).pending = s.pending := beginReset_pending s
@[simp] theorem powerLoss_switch : (powerLoss s).switch = .unknown := rfl
@[simp] theorem powerLoss_trace : (powerLoss s).trace = .empty := rfl
@[simp] theorem powerLoss_engine : (powerLoss s).engine = Engine.waiting := rfl
@[simp] theorem powerLoss_queue : (powerLoss s).queue = Queue.empty := rfl
@[simp] theorem powerLoss_notices : (powerLoss s).notices = PerClient.const NoticeState.reset := rfl
@[simp] theorem powerLoss_links : (powerLoss s).links = PerClient.const Link.reset := rfl
@[simp] theorem powerLoss_log :
    (powerLoss s).log = { ring := [], next := 0, readers := PerClient.const LogReader.reset } := rfl
@[simp] theorem powerLoss_cands : (powerLoss s).cands = Vector.replicate 48 none := rfl
@[simp] theorem powerLoss_records : (powerLoss s).records = Vector.replicate 48 none := rfl
@[simp] theorem powerLoss_equip : (powerLoss s).equip = none := rfl
@[simp] theorem powerLoss_craftArmed : (powerLoss s).craftArmed = false := rfl
@[simp] theorem powerLoss_clock : (powerLoss s).clock = { now := Time.zero, running := false } := rfl
@[simp] theorem powerLoss_windows :
    (powerLoss s).windows = mapTable (fun w => { w with remaining := none }) s.windows := by
  simp [powerLoss]
@[simp] theorem powerLoss_front :
    (powerLoss s).front = { s.front with laser := false, checking := false, record := none } := by
  simp [powerLoss]

end

end Sys2Proof.Machine
end

section
/-!
Clock, windows, links and the queue of commands: what no request and no event but the ones meant for them changes, and the laws
of the clock (O4) and of the links (O7).
-/
namespace Sys2Proof.Machine

/-! ### What no owner changes -/

/-- What no owner of a request changes: the links, the shelf reset line and the queue of commands. -/
structure LinksKept (s t : State) : Prop where
  links : t.links = s.links
  shelf : t.shelf = s.shelf
  pending : t.pending = s.pending

theorem LinksKept.refl (s : State) : LinksKept s s := ⟨rfl, rfl, rfl⟩

theorem LinksKept.trans {s t u : State} (h : LinksKept s t) (k : LinksKept t u) : LinksKept s u :=
  ⟨k.links.trans h.links, k.shelf.trans h.shelf, k.pending.trans h.pending⟩

theorem FinishOnly.linksKept {s t : State} (h : FinishOnly s t) : LinksKept s t := ⟨h.links, h.shelf, h.pending⟩

theorem PortOnly.linksKept {s t : State} (h : PortOnly s t) : LinksKept s t := h.finish.linksKept

theorem QueueOnly.linksKept {s t : State} (h : QueueOnly s t) : LinksKept s t := h.port.linksKept

/-- A frame up to fields that are neither link, line nor queue of commands. -/
theorem LinksKept.upTo {s t u : State} (k : LinksKept t u) (links : t.links = s.links) (shelf : t.shelf = s.shelf)
    (pending : t.pending = s.pending) : LinksKept s u :=
  LinksKept.trans ⟨links, shelf, pending⟩ k

theorem Work.linksKept {c : Client} {wf : Prop} {code : Nat} {s t : State} (h : Work c wf code s t) : LinksKept s t := by
  induction h with
  | nothing => exact .refl s
  | test r k cl => exact (askTest_portOnly _ _ _ _ _).linksKept
  | testGone r k cl => exact (askTest_portOnly _ _ _ _ _).linksKept.trans ⟨rfl, rfl, rfl⟩
  | cancelKept e => exact ((setEntries_queueOnly _ _).trans (dropFromMarks_queueOnly _ _ _)).linksKept
  | cancelWaiting e => exact (leaveQueue_queueOnly _ _ _ _ _).linksKept
  | cancelRunning e =>
    exact (((stopAcquisition_portOnly _).trans (leaveQueue_queueOnly _ _ _ _ _).port).trans (handOut_portOnly _)).linksKept
  | markDone => exact (raiseTo_queueOnly _ _ _).linksKept
  | define r d => exact (acceptDefinition_finishOnly _ _ _ _).linksKept.upTo rfl rfl rfl
  | delete r => exact (acceptDeletion_finishOnly _ _ _).linksKept.upTo rfl rfl rfl
  | holds r h => exact (changeHolds_portOnly _ _ _ _).linksKept.upTo rfl rfl rfl
  | window i d w => exact (acceptWindow_portOnly _ _ _).linksKept.upTo rfl rfl rfl
  | setClock => exact ⟨rfl, rfl, rfl⟩
  | startClock => exact ⟨rfl, rfl, rfl⟩
  | setAndStart set _ ih => exact ih.trans ⟨rfl, rfl, rfl⟩
  | stopClock => exact (changeWindows_portOnly _ _ _).linksKept.upTo rfl rfl rfl
  | thresholdReached set ih => exact ih.trans (raiseTo_queueOnly _ _ _).linksKept
  | setBarred p d => exact (routeReport_portOnly _ _).linksKept.upTo rfl rfl rfl
  | leaveFaulted => exact (leaveFaulted_portOnly _).linksKept.upTo rfl rfl rfl
  | markOpens | setNotices | clearNotices | readLog | setDevice | clearEquipment | arm => exact ⟨rfl, rfl, rfl⟩

/-! ### The queue of commands -/

theorem Effect.pending_eq {wf : Prop} {s t : State} (h : Effect wf s t) : t.pending = s.pending := by
  induction h with
  | framed c line after ih => exact ih
  | busy c tag =>
    unfold refuseBusy
    dsimp only
    split <;> rfl
  | served c tag r ready may fits => exact (ownerOf_work r _ may fits).linksKept.pending
  | craftReset line => exact (endReset_finishOnly _ _).pending.trans (beginReset_pending _)
  | shelfReset line => exact beginReset_pending _
  | release k line => exact (endReset_finishOnly _ _).pending
  | powerOnHeld line => exact powerLoss_pending _
  | powerOn line => exact (endReset_finishOnly _ _).pending.trans (powerLoss_pending _)
  | homed state timer => exact (concludeIn_portOnly _ _).pending
  | stuck state => exact (homeSwitch_portOnly _).pending.trans (finishEntry_finishOnly _ _ _ _ _).pending
  | liveLight run rec | acqTimeout state => exact (concludeIn_finishEntry_finishOnly _ _ _ _ _ _).pending
  | analysed run f cells out j => exact (concludeIn_finishEntry_finishOnly _ _ _ _ _ _).pending
  | fires run rec => exact (startFiring_finishOnly _ _).pending
  | @captured s r w data run h =>
    refine (concludeIn_finishEntry_finishOnly _ _ _ _ _ _).pending.trans ?_
    rcases commitCapture_finishOnly run r h (writeDone (r.blocks.getD w 0) data s) with ⟨-, k⟩ | ⟨b, -, k⟩ <;>
      exact k.pending
  | storeError r w data => exact (concludeIn_finishEntry_finishOnly _ _ _ _ _ _).pending
  | cutOffGood r w data | cutOffFailed r w data => exact (cutOffEnds_portOnly _).pending
  | laserFault s => exact (laserFault_finishOnly _).pending
  | tick s =>
    rcases tickClock_cases s with ⟨-, h⟩ | ⟨-, -, h⟩ | ⟨-, -, -, h⟩ | ⟨-, -, -, h⟩ <;> rw [h]
    exact (changeWindows_portOnly _ _ _).pending
  | _ => rfl

/-! ### The clock and its windows (R139, R140, R145) -/

theorem TimeLaw.of_eq {s t : State} (h : TimeLaw s) (hc : t.clock = s.clock) (hw : t.windows = s.windows) : TimeLaw t := by
  unfold TimeLaw
  rw [hc, hw]
  exact h

theorem TimeLaw.finish {s t : State} (h : TimeLaw s) (k : FinishOnly s t) : TimeLaw t := h.of_eq k.clock k.windows

/-- A frame up to fields that are neither clock nor window. -/
theorem TimeLaw.upTo {s t u : State} (h : TimeLaw s) (k : FinishOnly t u) (hc : t.clock = s.clock)
    (hw : t.windows = s.windows) : TimeLaw u :=
  h.of_eq (k.clock.trans hc) (k.windows.trans hw)

theorem TimeLaw.port {s t : State} (h : TimeLaw s) (k : PortOnly s t) : TimeLaw t := h.finish k.finish

/-- A window closed, whatever it was, is one a stopped clock may have. -/
theorem WindowOk.closed {w : Window} (h : WindowOk w) : WindowOk { w with remaining := none } :=
  ⟨h.1, h.2.1, h.2.2.1, h.2.2.2.1, fun _ hn => by cases hn⟩

theorem timeLaw_allClosed {s : State} (hc : TimeOk s.clock.now)
    (hw : ∀ w : WindowNo, WindowOk s.windows[w] ∧ s.windows[w].remaining = none) : TimeLaw s :=
  ⟨hc, fun w => (hw w).1, fun _ w => (hw w).2⟩

theorem closedWindows_ok {v : Vector Window 8} (h : ∀ w : WindowNo, WindowOk v[w]) (w : WindowNo) :
    WindowOk (mapTable (fun x : Window => { x with remaining := none }) v)[w]
      ∧ (mapTable (fun x : Window => { x with remaining := none }) v)[w].remaining = none := by
  rw [mapTable_getFin]
  exact ⟨(h w).closed, rfl⟩

theorem windowSettingsOf_eq_some {d : WindowDef} {w : WindowSettings} (h : windowSettingsOf d = some w) :
    w.hour ≤ 31 ∧ w.minute ≤ 63 ∧ 1 ≤ w.duration ∧ w.duration ≤ 720 := by
  unfold windowSettingsOf at h
  split at h
  · cases h
  · split_ifs at h with hr
    cases h
    dsimp only
    omega

theorem editedWindow_ok {w : WindowSettings} {old : Window} {d : WindowDef} (hw : windowSettingsOf d = some w)
    (hold : WindowOk old) : WindowOk (editedWindow w old) := by
  obtain ⟨hhour, hminute, hpos, hmax⟩ := windowSettingsOf_eq_some hw
  refine ⟨hhour, hminute, hpos, hmax, fun n hn => ?_⟩
  simp only [editedWindow] at hn
  split_ifs at hn with he
  obtain ⟨k, hk, rfl⟩ := Option.map_eq_some_iff.mp hn
  obtain ⟨-, hk1, -⟩ := hold.2.2.2.2 k hk
  exact ⟨he, le_min hpos hk1, min_le_left _ _⟩

theorem windowAtRollover_ok (t : Time) {w : Window} (h : WindowOk w) : WindowOk (windowAtRollover t w) := by
  obtain ⟨hhour, hminute, hpos, hmax, hopen⟩ := h
  have hsame : ∀ r, (∀ n, r = some n → w.settings.enabled = true ∧ 1 ≤ n ∧ n ≤ w.settings.duration) →
      WindowOk { w with remaining := r } := fun r hr => ⟨hhour, hminute, hpos, hmax, hr⟩
  unfold windowAtRollover
  split
  · exact hsame _ hopen
  rename_i henabled
  have he : w.settings.enabled = true := by simpa using henabled
  have hfull := hsame (some w.settings.duration) (by rintro n ⟨⟩; exact ⟨he, hpos, le_refl _⟩)
  split
  · split
    · exact hfull
    · exact hsame _ hopen
  · rename_i n hn
    split
    · refine hsame _ ?_
      rintro m ⟨⟩
      obtain ⟨-, -, hle⟩ := hopen n hn
      exact ⟨he, by omega, by omega⟩
    · split
      · exact hfull
      · exact hsame _ (by simp)

theorem nextSecond_ok {t : Time} (h : TimeOk t) : TimeOk (nextSecond t) := by
  obtain ⟨hs, hm, hh, hd⟩ := h
  unfold nextSecond TimeOk
  split_ifs <;> dsimp only <;> omega

theorem TimeLaw.tick {s : State} (h : TimeLaw s) : TimeLaw (tickClock s) := by
  obtain ⟨hnow, hwin, hstop⟩ := h
  have hrolled (w : WindowNo) : WindowOk (rolledWindows (nextSecond s.clock.now) s)[w] := by
    unfold rolledWindows
    rw [mapTable_getFin]
    exact windowAtRollover_ok _ (hwin w)
  rcases tickClock_cases s with ⟨-, k⟩ | ⟨hr, -, k⟩ | ⟨hr, -, -, k⟩ | ⟨hr, -, -, k⟩ <;> rw [k]
  · exact ⟨hnow, hwin, hstop⟩
  · exact ⟨nextSecond_ok hnow, hwin, fun hf => by simp [hr] at hf⟩
  · exact ⟨nextSecond_ok hnow, hrolled, fun hf => by simp [hr] at hf⟩
  · refine TimeLaw.port ?_ (changeWindows_portOnly _ _ _)
    exact ⟨nextSecond_ok hnow, hrolled, fun hf => by simp [hr] at hf⟩

theorem editedWindows_getFin (i j : WindowNo) (w : WindowSettings) (s : State) :
    (editedWindows i w s)[j] = if i = j then editedWindow w s.windows[i] else s.windows[j] := by
  unfold editedWindows
  rw [getFin_set]

theorem TimeLaw.edited {s : State} (h : TimeLaw s) (i : WindowNo) {d : WindowDef} {w : WindowSettings}
    (hw : windowSettingsOf d = some w) : TimeLaw { s with windows := editedWindows i w s } := by
  obtain ⟨hnow, hwin, hstop⟩ := h
  refine ⟨hnow, fun j => ?_, fun hr j => ?_⟩ <;> dsimp only <;> rw [editedWindows_getFin] <;> split
  · exact editedWindow_ok hw (hwin i)
  · exact hwin j
  · simp only [editedWindow, hstop hr i, Option.map_none, ite_self]
  · exact hstop hr j

theorem TimeLaw.work {c : Client} {wf : Prop} {code : Nat} {s t : State} (h : Work c wf code s t) (hwf : wf) (hl : TimeLaw s) :
    TimeLaw t := by
  induction h with
  | nothing => exact hl
  | test r k cl => exact hl.port (askTest_portOnly _ _ _ _ _)
  | testGone r k cl => exact (hl.port (askTest_portOnly _ _ _ _ _)).of_eq rfl rfl
  | cancelKept e => exact hl.port ((setEntries_queueOnly _ _).trans (dropFromMarks_queueOnly _ _ _)).port
  | cancelWaiting e => exact hl.port (leaveQueue_queueOnly _ _ _ _ _).port
  | cancelRunning e =>
    exact hl.port (((stopAcquisition_portOnly _).trans (leaveQueue_queueOnly _ _ _ _ _).port).trans (handOut_portOnly _))
  | define r d => exact hl.upTo (acceptDefinition_finishOnly _ _ _ _) rfl rfl
  | delete r => exact hl.upTo (acceptDeletion_finishOnly _ _ _) rfl rfl
  | holds r h => exact hl.upTo (changeHolds_portOnly _ _ _ _).finish rfl rfl
  | window i d w values => exact (hl.edited i values).port (acceptWindow_portOnly _ _ _)
  | setClock day hour minute values stopped =>
    obtain ⟨hday, hhour, hminute⟩ := values
    obtain ⟨-, hwin, hstop⟩ := hl
    exact ⟨⟨Nat.zero_lt_succ _, Nat.lt_succ_of_le hminute, Nat.lt_succ_of_le hhour, hday hwf⟩, hwin, hstop⟩
  | startClock stopped =>
    obtain ⟨hnow, hwin, -⟩ := hl
    exact ⟨hnow, hwin, fun hr => by cases hr⟩
  | setAndStart set stopped ih =>
    obtain ⟨hnow, hwin, -⟩ := ih
    exact ⟨hnow, hwin, fun hr => by cases hr⟩
  | stopClock runs =>
    obtain ⟨hnow, hwin, -⟩ := hl
    refine TimeLaw.port ?_ (changeWindows_portOnly _ _ _)
    exact timeLaw_allClosed hnow fun w => closedWindows_ok hwin w
  | thresholdReached set ih => exact ih.of_eq rfl rfl
  | setBarred p d => exact hl.upTo (routeReport_portOnly _ _).finish rfl rfl
  | leaveFaulted => exact hl.upTo (leaveFaulted_portOnly _).finish rfl rfl
  | markDone | markOpens | setNotices | clearNotices | readLog | setDevice | clearEquipment | arm => exact hl.of_eq rfl rfl

theorem timeOk_zero : TimeOk Time.zero := by
  unfold TimeOk Time.zero
  decide

theorem TimeLaw.powerLoss {s : State} (h : TimeLaw s) : TimeLaw (powerLoss s) := by
  refine timeLaw_allClosed timeOk_zero fun w => ?_
  rw [powerLoss_windows]
  exact closedWindows_ok h.2.1 w

theorem TimeLaw.effect {wf : Prop} {s t : State} (h : Effect wf s t) (hwf : wf) (hl : TimeLaw s) : TimeLaw t := by
  induction h with
  | nothing s => exact hl
  | assembly c a | sent c | turnedAway c tag code st => exact hl.of_eq rfl rfl
  | framed c line after ih => exact ih (hl.of_eq rfl rfl)
  | busy c tag =>
    unfold refuseBusy
    dsimp only
    split <;> exact hl.of_eq rfl rfl
  | served c tag r ready may fits => exact (TimeLaw.work (ownerOf_work r _ may fits) hwf hl).of_eq rfl rfl
  | craftReset line =>
    exact hl.upTo (endReset_finishOnly _ _) (beginReset_clock _) (beginReset_windows _)
  | shelfReset line => exact hl.of_eq (beginReset_clock _) (beginReset_windows _)
  | release k line => exact hl.upTo (endReset_finishOnly _ _) rfl rfl
  | powerOnHeld line => exact hl.powerLoss.of_eq rfl rfl
  | powerOn line =>
    exact hl.powerLoss.upTo (endReset_finishOnly _ _) rfl rfl
  | homed state timer => exact hl.of_eq (concludeIn_portOnly _ _).clock (concludeIn_portOnly _ _).windows
  | stuck state => exact (hl.finish (finishEntry_finishOnly _ _ _ _ _)).port (homeSwitch_portOnly _)
  | liveLight run rec | acqTimeout state | analysed run f cells out j | storeError r w data =>
    exact hl.upTo (concludeIn_finishEntry_finishOnly _ _ _ _ _ _) rfl rfl
  | fires run rec => exact hl.upTo (startFiring_finishOnly _ _) rfl rfl
  | @captured s r w data run h =>
    refine TimeLaw.finish ?_ (concludeIn_finishEntry_finishOnly _ _ _ _ _ _)
    rcases commitCapture_finishOnly run r h (writeDone (r.blocks.getD w 0) data s) with ⟨-, k⟩ | ⟨b, -, k⟩
    · exact hl.of_eq k.clock k.windows
    · exact hl.of_eq k.clock k.windows
  | cutOffGood r w data | cutOffFailed r w data =>
    exact hl.of_eq (cutOffEnds_portOnly _).clock (cutOffEnds_portOnly _).windows
  | laserFault s => exact hl.of_eq (laserFault_finishOnly _).clock (laserFault_finishOnly _).windows
  | tick s => exact hl.tick
  | arrived | settled | homeFailed | shot | lastShot | commits | nextWrite | faultEnds | pulseEnds => exact hl.of_eq rfl rfl

/-- Settles O4: effect by effect; the commands that wait are well-formed, so a SET_CLOCK carries a day that fits. -/
theorem everyStepKeepsTimeLaw : Obligations.EveryStepKeepsTimeLaw := by
  intro s t hfits hlaw hstep
  unfold step at hstep
  split at hstep
  · cases hstep
    exact ⟨hfits, hlaw⟩
  · rename_i i rest hp
    have heffect := exec_effect hstep
    have hpending : t.pending = rest := heffect.pending_eq
    refine ⟨fun k hk => hfits k ?_, TimeLaw.effect heffect (hfits i ?_) hlaw⟩
    · rw [hp]
      exact List.mem_cons_of_mem _ (hpending ▸ hk)
    · rw [hp]
      exact List.mem_cons_self

end Sys2Proof.Machine
end

section
/-!
The law of the links (O7): a link is in service exactly while it owes a reply, and what a reply without data may say.
-/
namespace Sys2Proof.Machine

/-! ### One link -/

theorem linkOk_reset : LinkOk Link.reset := ⟨trivial, by simp [Link.reset], by decide, by simp [Link.reset]⟩

theorem owedBusy_append (l : Link) (r : Reply) :
    owedBusy { l with owed := l.owed ++ [r] } = owedBusy l + if r.status = .busy then 1 else 0 := by
  unfold owedBusy
  by_cases h : r.status = .busy <;> simp [h]

theorem LinkOk.setRx {l : Link} {a : Assembly} (h : LinkOk l) (ha : AssemblyOk a) : LinkOk { l with rx := a } :=
  ⟨ha, h.2⟩

/-- A reply joins those a link in service owes. -/
theorem LinkOk.owes {l : Link} {v : Service} {r : Reply} (h : LinkOk l) (hbusy : r.status = .busy → owedBusy l < 4)
    (hdata : r.status = .busy ∨ r.status = .notPermitted ∨ r.status = .badRequest → r.data = .none) :
    LinkOk { l with service := some v, owed := l.owed ++ [r] } := by
  obtain ⟨hrx, -, hcount, howed⟩ := h
  refine ⟨hrx, by simp, ?_, fun x hx => ?_⟩
  · have := owedBusy_append l r
    unfold owedBusy at this hcount hbusy ⊢
    dsimp only at this ⊢
    split at this <;> grind
  · rcases List.mem_append.mp hx with hx | hx
    · exact howed x hx
    · obtain rfl := List.mem_singleton.mp hx
      exact hdata

theorem LinkOk.sent {l : Link} (h : LinkOk l) (howed : l.owed ≠ []) : LinkOk (linkAfterSent l) := by
  obtain ⟨hrx, hservice, hcount, hdata⟩ := h
  unfold linkAfterSent
  cases ho : l.owed with
  | nil => exact absurd ho howed
  | cons r rest =>
    unfold owedBusy at hcount
    rw [ho] at hcount hservice
    have hle : (rest.filter fun r => r.status == .busy).length ≤ 4 :=
      le_trans (List.Sublist.length_le ((List.sublist_cons_self r rest).filter _)) hcount
    cases rest with
    | nil => exact ⟨hrx, by simp, by simp [owedBusy], by simp⟩
    | cons r' rest =>
      refine ⟨hrx, by simpa using hservice, hle, fun x hx => hdata x ?_⟩
      rw [ho]
      exact List.mem_cons_of_mem _ hx

/-! ### The law -/

section
variable {s t : State}

theorem LinkLaw.of_eq (h : LinkLaw s) (hl : t.links = s.links) (hc : t.craftArmed = s.craftArmed) (hs : t.shelf = s.shelf) :
    LinkLaw t := by
  unfold LinkLaw
  rw [hl, hc, hs]
  exact h

theorem LinkLaw.upTo {u : State} (h : LinkLaw s) (k : FinishOnly t u) (hl : t.links = s.links)
    (hc : t.craftArmed = s.craftArmed) (hs : t.shelf = s.shelf) : LinkLaw u :=
  h.of_eq (k.links.trans hl) (k.craftArmed.trans hc) (k.shelf.trans hs)

/-- A card just reset has every link at rest. -/
theorem linkLaw_atRest (hl : t.links = PerClient.const Link.reset) (hc : t.craftArmed = false) : LinkLaw t := by
  unfold LinkLaw
  rw [hl, hc]
  refine ⟨fun c => ?_, by simp, fun _ => ⟨rfl, fun c => by simp; rfl⟩⟩
  rw [perGet_const]
  exact linkOk_reset

/-- A link changed while the shelf reset line is not active, which leaves an armed craft reset its request in service. -/
theorem LinkLaw.setLink (h : LinkLaw s) (c : Client) {l : Link} (hline : s.shelf = none) (hl : LinkOk l)
    (hs : c = .cr → s.craftArmed = true → l.service = (perGet s.links .cr).service) : LinkLaw (setLink c l s) := by
  obtain ⟨hok, harmed, -⟩ := h
  refine ⟨fun d => ?_, fun ha => ?_, fun hsome => ?_⟩
  · show LinkOk (perGet (perSet s.links c l) d)
    rw [perGet_perSet]
    split
    · exact hl
    · exact hok d
  · obtain ⟨tag, htag⟩ := harmed ha
    refine ⟨tag, ?_⟩
    show (perGet (perSet s.links c l) .cr).service = _
    rw [perGet_perSet]
    split
    · rename_i hc
      exact (hs hc.symm ha).trans htag
    · exact htag
  · have : s.shelf.isSome = true := hsome
    rw [hline] at this
    cases this

/-- No owner arms the craft reset but that of RESET (R182). -/
theorem Work.craftArmed_eq {c : Client} {wf : Prop} {code : Nat} (h : Work c wf code s t) :
    t.craftArmed = s.craftArmed ∨ c = .cr ∧ code = 0x1C := by
  induction h with
  | arm sender reset => exact .inr ⟨sender, reset⟩
  | setAndStart set _ ih => exact ih
  | thresholdReached set ih => exact ih
  | test r k cl | testGone r k cl => exact .inl (askTest_portOnly _ _ _ _ _).craftArmed
  | cancelKept e =>
    exact .inl ((setEntries_queueOnly _ _).trans (dropFromMarks_queueOnly _ _ _)).craftArmed
  | cancelWaiting e => exact .inl (leaveQueue_queueOnly _ _ _ _ _).craftArmed
  | cancelRunning e =>
    exact .inl (((stopAcquisition_portOnly _).trans (leaveQueue_queueOnly _ _ _ _ _).port).trans
      (handOut_portOnly _)).craftArmed
  | define r d => exact .inl (acceptDefinition_finishOnly _ _ _ _).craftArmed
  | delete r => exact .inl (acceptDeletion_finishOnly _ _ _).craftArmed
  | holds r h => exact .inl (changeHolds_portOnly _ _ _ _).craftArmed
  | window i d w => exact .inl (acceptWindow_portOnly _ _ _).craftArmed
  | stopClock => exact .inl (changeWindows_portOnly _ _ _).craftArmed
  | setBarred p d => exact .inl (routeReport_portOnly _ _).craftArmed
  | leaveFaulted => exact .inl (leaveFaulted_portOnly _).craftArmed
  | nothing | markDone | markOpens | setClock | startClock | setNotices | clearNotices | readLog | setDevice
  | clearEquipment => exact .inl rfl

/-- A reply of status BUSY, NOT_PERMITTED or BAD_REQUEST carries no data (R184). -/
def Dataless (p : State × Status × ReplyData) : Prop :=
  p.2.1 ≠ .busy ∧ p.2.1 ≠ .badRequest ∧ (p.2.1 = .notPermitted → p.2.2 = .none)

theorem ownTest_dataless (c : Client) (route kind cls : Nat) (s : State) : Dataless (ownTest c route kind cls s) := by
  unfold ownTest
  split
  · split
    case h_5 =>
      unfold testReply
      split <;> simp [Dataless]
    all_goals simp [Dataless]
  · simp [Dataless]

/-- No owner answers BUSY or BAD_REQUEST, and NOT_PERMITTED only without data (R184). -/
theorem ownerOf_dataless (c : Client) (r : Request) (s : State) : Dataless (ownerOf c r s) := by
  cases r with
  | test route kind cls => exact ownTest_dataless c route kind cls s
  | cancel id =>
    simp only [ownerOf, ownCancel]
    repeat' split
    all_goals simp [Dataless]
  | readBaseline route offset count e =>
    simp only [ownerOf, ownReadBaseline]
    repeat' split
    all_goals simp [Dataless]
  | readTrace acq offset count =>
    simp only [ownerOf, ownReadTrace]
    repeat' split
    all_goals simp [Dataless]
  | defineRoute route rev d =>
    simp only [ownerOf, ownDefineRoute]
    repeat' split
    all_goals simp [Dataless]
  | mark => simp only [ownerOf, ownMark]; split_ifs <;> simp [Dataless]
  | readQueue start => simp only [ownerOf, ownReadQueue]; split_ifs <;> simp [Dataless]
  | deleteRoute route rev => simp only [ownerOf, ownDeleteRoute]; split <;> [skip; split_ifs] <;> simp [Dataless]
  | readRoute route => simp only [ownerOf, ownReadRoute]; split <;> simp [Dataless]
  | readResult route first => simp only [ownerOf, ownReadResult]; split <;> [skip; split_ifs] <;> simp [Dataless]
  | hold route => simp only [ownerOf, ownHold]; split <;> [skip; split_ifs] <;> simp [Dataless]
  | release route => simp only [ownerOf, ownRelease]; split <;> [skip; split_ifs] <;> simp [Dataless]
  | clearHolds route => simp only [ownerOf, ownClearHolds]; split <;> simp [Dataless]
  | setWindow w d => simp only [ownerOf, ownSetWindow]; split <;> [split_ifs; skip] <;> simp [Dataless]
  | readWindow w => simp only [ownerOf, ownReadWindow]; split <;> simp [Dataless]
  | setClock day hour minute start => simp only [ownerOf, ownSetClock]; split_ifs <;> simp [Dataless]
  | stopClock => simp only [ownerOf, ownStopClock]; split_ifs <;> simp [Dataless]
  | setNotices p => simp only [ownerOf, ownSetNotices]; split <;> simp [Dataless]
  | setDevice p => simp only [ownerOf, ownSetDevice]; split <;> simp [Dataless]
  | clearEquipment => simp only [ownerOf, ownClearEquipment]; split_ifs <;> simp [Dataless]
  | startClock | readClock | readNotices | ackNotices | readLog | readDevice | readEquipment | reset =>
    simp [ownerOf, ownStartClock, ownReadClock, ownReadNotices, ownAckNotices, ownReadLog, ownReadDevice, ownReadEquipment,
      ownReset, Dataless]

theorem LinkLaw.served {c : Client} {r : Request} {wf : Prop} (h : LinkLaw s) (tag : Byte) (ready : Ready c s)
    (work : Work c wf r.code s (ownerOf c r s).1) : LinkLaw (answer c tag r.code (ownerOf c r s)) := by
  obtain ⟨hok, harmed, -⟩ := h
  obtain ⟨hline, hservice⟩ := ready
  obtain ⟨hbusy, hbad, hnp⟩ := ownerOf_dataless c r s
  have hkept := work.linksKept
  have hthis : LinkOk { perGet s.links c with
      service := some { tag := tag, code := r.code }
      owed := (perGet s.links c).owed ++ [{ tag := tag, status := (ownerOf c r s).2.1, data := (ownerOf c r s).2.2 }] } :=
    (hok c).owes (fun hb => absurd hb hbusy) (by
      rintro (hb | hb | hb)
      · exact absurd hb hbusy
      · exact hnp hb
      · exact absurd hb hbad)
  unfold answer
  dsimp only
  refine ⟨fun d => ?_, fun ha => ?_, fun hsome => ?_⟩
  · show LinkOk (perGet (perSet (ownerOf c r s).1.links c _) d)
    rw [hkept.links, perGet_perSet]
    split
    · exact hthis
    · exact hok d
  · show ∃ t, (perGet (perSet (ownerOf c r s).1.links c _) .cr).service = _
    rw [hkept.links, perGet_perSet]
    have ha' : (ownerOf c r s).1.craftArmed = true := ha
    rcases work.craftArmed_eq with heq | ⟨rfl, hcode⟩
    · rw [heq] at ha'
      obtain ⟨tag', htag⟩ := harmed ha'
      split
      · rename_i hc
        subst hc
        exact absurd (htag.symm.trans hservice) (by simp)
      · exact ⟨tag', htag⟩
    · exact ⟨tag, by simp [hcode]⟩
  · have hsome' : (ownerOf c r s).1.shelf.isSome = true := hsome
    rw [hkept.shelf, hline] at hsome'
    cases hsome'

theorem LinkLaw.turnedAway {c : Client} (h : LinkLaw s) (tag : Byte) (code : Nat) (st : Status) (ready : Ready c s)
    (hst : st ≠ .busy) : LinkLaw (answer c tag code (s, st, .none)) := by
  refine h.setLink c ready.1 ((h.1 c).owes (fun hb => absurd hb hst) fun _ => rfl) ?_
  rintro rfl ha
  obtain ⟨tag', htag⟩ := h.2.1 ha
  exact absurd (htag.symm.trans ready.2) (by simp)

theorem LinkLaw.busy {c : Client} (h : LinkLaw s) (tag : Byte) (line : s.shelf = none)
    (service : (perGet s.links c).service ≠ none) : LinkLaw (refuseBusy c tag s) := by
  unfold refuseBusy
  dsimp only
  split
  · rename_i hlt
    obtain ⟨v, hv⟩ := Option.ne_none_iff_exists'.mp service
    refine h.setLink c line ?_ (by rintro rfl _; rfl)
    have hk := (h.1 c).owes (v := v) (r := { tag := tag, status := .busy, data := .none }) (fun _ => hlt) fun _ => rfl
    rw [← hv] at hk
    exact hk
  · exact h

theorem LinkLaw.sent {c : Client} (h : LinkLaw s) (owed : (perGet s.links c).owed ≠ [])
    (noReset : ¬(c = .cr ∧ s.craftArmed = true)) : LinkLaw (Machine.setLink c (linkAfterSent (perGet s.links c)) s) := by
  refine h.setLink c ?_ ((h.1 c).sent owed) fun hc ha => absurd ⟨hc, ha⟩ noReset
  by_contra hline
  obtain ⟨-, hrest⟩ := h.2.2 (Option.isSome_iff_ne_none.mpr hline)
  rw [hrest c] at owed
  exact owed rfl

theorem LinkLaw.rx {c : Client} {a : Assembly} (h : LinkLaw s) (line : s.shelf = none)
    (ok : AssemblyOk (perGet s.links c).rx → AssemblyOk a) : LinkLaw (setRx c a s) :=
  h.setLink c line ((h.1 c).setRx (ok (h.1 c).1)) (by rintro rfl _; rfl)

theorem linkLaw_endReset {k : ResetKind} (hl : s.links = PerClient.const Link.reset) (hc : s.craftArmed = false) :
    LinkLaw (endReset k s) :=
  linkLaw_atRest ((endReset_finishOnly k s).links.trans hl) ((endReset_finishOnly k s).craftArmed.trans hc)

theorem LinkLaw.effect {wf : Prop} (h : Effect wf s t) (hl : LinkLaw s) : LinkLaw t := by
  induction h with
  | nothing s => exact hl
  | assembly c a line ok => exact hl.rx line ok
  | framed c line after ih => exact ih (hl.rx line fun _ => trivial)
  | sent c owed noReset => exact hl.sent owed noReset
  | busy c tag line service => exact hl.busy tag line service
  | turnedAway c tag code st ready notBusy => exact hl.turnedAway tag code st ready notBusy
  | served c tag r ready may fits => exact hl.served tag ready (ownerOf_work r _ may fits)
  | craftReset line => exact linkLaw_endReset rfl rfl
  | shelfReset line => exact linkLaw_atRest rfl rfl
  | @release s k line =>
    obtain ⟨hc, hrest⟩ := hl.2.2 (by simp [line])
    refine linkLaw_endReset ?_ hc
    have h0 := hrest .scA
    have h1 := hrest .scB
    have h2 := hrest .ls
    have h3 := hrest .cr
    cases hs : s.links
    simp_all [perGet, PerClient.const, Link.reset]
  | powerOnHeld line => exact linkLaw_atRest rfl rfl
  | powerOn line => exact linkLaw_endReset rfl rfl
  | homed state timer => exact hl.upTo (concludeIn_portOnly _ _).finish rfl rfl rfl
  | stuck state =>
    exact hl.upTo ((finishEntry_finishOnly _ _ _ _ _).trans (homeSwitch_portOnly _).finish) rfl rfl rfl
  | liveLight run rec | acqTimeout state | analysed run f cells out j | storeError r w data =>
    exact hl.upTo (concludeIn_finishEntry_finishOnly _ _ _ _ _ _) rfl rfl rfl
  | fires run rec => exact hl.upTo (startFiring_finishOnly _ _) rfl rfl rfl
  | @captured s r w data run h =>
    rcases commitCapture_finishOnly run r h (writeDone (r.blocks.getD w 0) data s) with ⟨-, k⟩ | ⟨b, -, k⟩ <;>
      exact hl.upTo (k.trans (concludeIn_finishEntry_finishOnly _ _ _ _ _ _)) rfl rfl rfl
  | cutOffGood r w data | cutOffFailed r w data => exact hl.upTo (cutOffEnds_portOnly _).finish rfl rfl rfl
  | laserFault s => exact hl.upTo (laserFault_finishOnly _) rfl rfl rfl
  | tick s =>
    rcases tickClock_cases s with ⟨-, h⟩ | ⟨-, -, h⟩ | ⟨-, -, -, h⟩ | ⟨-, -, -, h⟩ <;> rw [h]
    · exact hl
    · exact hl.of_eq rfl rfl rfl
    · exact hl.of_eq rfl rfl rfl
    · exact hl.upTo (changeWindows_portOnly _ _ _).finish rfl rfl rfl
  | arrived | settled | homeFailed | shot | lastShot | commits | nextWrite | faultEnds | pulseEnds =>
    exact hl.of_eq rfl rfl rfl

end

/-- Settles O7, effect by effect. -/
theorem everyStepKeepsLinkLaw : Obligations.EveryStepKeepsLinkLaw := fun _ _ hlaw hstep =>
  step_keeps (P := LinkLaw) (fun _ _ h => h.of_eq rfl rfl rfl) (fun h => LinkLaw.effect h) hlaw hstep

end Sys2Proof.Machine
end

section
/-!
What each small change of the card keeps, every command keeps: the induction over the shared operations, the requests and the
events behind the laws of the notices, the Result Log, the Test Queue and its entries, packaged once.
-/
namespace Sys2Proof.Machine

/-- A TEST that is placed is of a route that is not UNUSED, and of no WAITING twin unless it joins it (R105). -/
theorem askTest_placed (who : Nat) (r : RouteNo) (k : TestKind) (cls : TestClass) (s : State) :
    (askTest who r k cls s).2 = s
      ∨ (s.routes[r].body ≠ none ∧ isClosed s r = false
        ∧ ((∃ e ∈ s.queue.entries, isWaiting e = true ∧ e.route = r ∧ e.kind = k
            ∧ (askTest who r k cls s).2 = joinEntry who cls e s)
          ∨ (s.queue.entries.length < 32 ∧ (∀ e ∈ s.queue.entries, isWaiting e = true → ¬(e.route = r ∧ e.kind = k))
            ∧ (askTest who r k cls s).2 = newEntry (freshId s.queue.entries 33 s.queue.counter) who r k cls s))) := by
  by_cases hb : s.routes[r].body = none
  · left
    unfold askTest routeStatus
    rw [hb]
    rfl
  · rcases askTest_cases who r k cls s with h | ⟨hc, e, hm, hw, hr, hk, h⟩ | ⟨hc, hl, ht, h⟩
    · exact .inl h.1
    · exact .inr ⟨hb, hc, .inl ⟨e, hm, hw, hr, hk, congrArg Prod.snd h⟩⟩
    · exact .inr ⟨hb, hc, .inr ⟨hl, ht, congrArg Prod.snd h⟩⟩

/-- The entry that a new TEST makes (R106). -/
def freshEntry (id who : Nat) (r : RouteNo) (k : TestKind) (cls : TestClass) : Entry :=
  { id, route := r, kind := k, cls, reqs := add 0 who, running := none }

/-- The queue with a new entry in the last place of its class (R102, R106). -/
def placedState (id who : Nat) (r : RouteNo) (k : TestKind) (cls : TestClass) (s : State) : State :=
  { s with queue := { s.queue with
    entries := placeEntry (freshEntry id who r k cls) s.queue.entries, counter := nextId id } }

/-- The queue with the WAITING entry `e` joined in its place (R107). -/
def joinedState (who : Nat) (e : Entry) (s : State) : State :=
  setEntries (s.queue.entries.map fun x => if x.id = e.id then { e with reqs := add e.reqs who } else x) s

/-- The ROUTINE entry `e` joined by a request of class URGENT (R107). -/
def upgradedEntry (who : Nat) (e : Entry) : Entry := { e with reqs := add e.reqs who, cls := .urgent }

/-- The queue with the WAITING ROUTINE entry `e` joined and moved to the last place of the URGENT ones (R107). -/
def upgradedState (who : Nat) (e : Entry) (s : State) : State :=
  setEntries (placeEntry (upgradedEntry who e) (s.queue.entries.filter fun x => x.id != e.id)) s

theorem joinEntry_cases (who : Nat) (cls : TestClass) (e : Entry) (s : State) :
    ((cls = .urgent ∧ e.cls = .routine) ∧ joinEntry who cls e s = arbitrate (upgradedState who e s))
      ∨ (¬(cls = .urgent ∧ e.cls = .routine) ∧ joinEntry who cls e s = joinedState who e s) := by
  unfold joinEntry
  by_cases h : cls = .urgent ∧ e.cls = .routine
  · exact .inl ⟨h, if_pos h⟩
  · exact .inr ⟨h, if_neg h⟩

theorem newEntry_cases (id who : Nat) (r : RouteNo) (k : TestKind) (cls : TestClass) (s : State) :
    (cls = .urgent ∧ newEntry id who r k cls s = arbitrate (placedState id who r k cls s))
      ∨ (cls = .routine ∧ newEntry id who r k cls s = handOut (placedState id who r k cls s)) := by
  cases cls with
  | urgent => exact .inl ⟨rfl, rfl⟩
  | routine => exact .inr ⟨rfl, rfl⟩

/-- The queue with the entry of `id` RUNNING under the acquisition number `acq` (R6). -/
def runningState (id acq : Nat) (s : State) : State :=
  setEntries (s.queue.entries.map fun x => if x.id = id then { x with running := some acq } else x) s

/-- The queue with the entry of `id` WAITING again in its place (R112). -/
def waitingState (id : Nat) (s : State) : State :=
  setEntries (s.queue.entries.map fun x => if x.id = id then { x with running := none } else x) s

/-- The queue with the client's request for the entry of `id` withdrawn, `left` requesting it still (R117). -/
def withdrawnState (c : Client) (id : Nat) (left : RequesterSet) (s : State) : State :=
  dropFromMarks c id (setEntries (s.queue.entries.map fun x => if x.id = id then { x with reqs := left } else x) s)

/-- The queue with a mark opened for the client (R122). -/
def openedState (c : Client) (s : State) : State :=
  { s with queue := { s.queue with marks := perSet s.queue.marks c (insertMark
    { number := freeMark (perGet s.queue.marks c), wait := requestedBy c s.queue.entries } (perGet s.queue.marks c)) } }

theorem stopRunning_cases (s : State) :
    stopRunning s = s
      ∨ ∃ e, runningEntry s = some e ∧ stopsFor (e.running.getD 0) s = true
          ∧ stopRunning s = mergeTwins e.route e.kind (waitingState e.id (stopAcquisition s)) := by
  rcases stopRunning_eq s with h | ⟨e, hrun, hstops, h⟩
  · exact .inl h
  · refine .inr ⟨e, hrun, hstops, ?_⟩
    rw [h, waitingState, stopAcquisition_queue]

/-- A requester's bit: that of a client, or CONFIRM's. -/
def IsRequester (who : Nat) : Prop := who < 5

/-- `P` looks at notices, log, queue and Route Table alone, and is kept by each of the small changes the card makes to them. -/
structure CardStable (P : State → Prop) : Prop where
  frame : ∀ {s t : State}, P s → t.notices = s.notices → t.log = s.log → t.queue = s.queue → t.routes = s.routes → P t
  log : ∀ b s, P s → P (logWrite b s)
  raise : ∀ p k s, k.InRange → P s → P (raiseTo p k s)
  leave : ∀ e out reqs c s, P s → P (leaveQueue e out reqs c s)
  runs : ∀ e acq s, P s → P (runningState e acq s)
  stopped : ∀ s, P s → P (stopRunning s)
  joined : ∀ who e s, IsRequester who → e ∈ s.queue.entries → P s → P (joinedState who e s)
  upgraded : ∀ who e s, IsRequester who → e ∈ s.queue.entries → P s → P (upgradedState who e s)
  placed : ∀ who r k cls s, IsRequester who → s.routes[r].body ≠ none → s.queue.entries.length < 32 →
    (∀ e ∈ s.queue.entries, isWaiting e = true → ¬(e.route = r ∧ e.kind = k)) → P s →
      P (placedState (freshId s.queue.entries 33 s.queue.counter) who r k cls s)
  withdrawn : ∀ c e s, e ∈ s.queue.entries → del e.reqs (bitOf c) ≠ 0 → P s →
    P (withdrawnState c e.id (del e.reqs (bitOf c)) s)
  opened : ∀ c s, (perGet s.queue.marks c).length < 4 → requestedBy c s.queue.entries ≠ [] → P s → P (openedState c s)
  switches : ∀ c p new t s, noticeSettingsOf p (perGet s.notices c).settings = some new →
    partOf positiveByteOf (perGet s.log.readers c).threshold p.threshold = some t → P s →
      P (setReader c { perGet s.log.readers c with threshold := t }
        (setNotice c (applySettings new (perGet s.notices c)) s))
  cleared : ∀ c p s, P s → P (setNotice c (clearTo p (perGet s.notices c)) s)
  read : ∀ c s, P s → P (setReader c { perGet s.log.readers c with
      cursor := ((perGet s.log.readers c).cursor
        + ((unreadEntries s.log (perGet s.log.readers c)).take 8).length) % 65536, overrun := false } s)
  pulse : ∀ c s, P s → P { s with notices := perSet s.notices c (endPulse (perGet s.notices c)) }
  reset : ∀ s : State, s.notices = PerClient.const NoticeState.reset →
    s.log = { ring := [], next := 0, readers := PerClient.const LogReader.reset } → s.queue = Queue.empty → P s
  routed : ∀ r e s, (e.body = none → s.routes[r].body = none) → P s → P (setRoute r e s)
  deletes : ∀ c r s, routeRunning s r = false → P s → P (acceptDeletion c r s)

namespace CardStable

section
variable {P : State → Prop} (hP : CardStable P) {s t : State}
include hP

/-! ### The shared operations -/

theorem switching (r : RouteNo) (h : P s) : P (startSwitching r s) :=
  hP.frame h (startSwitching_notices r s) (startSwitching_log r s) (startSwitching_queue r s)
    (startSwitching_portOnly r s).routes

theorem takes (e : Entry) (h : P s) : P (takeEntry e s) := by
  have hruns : P (runningState e.id ((s.engine.acq + 1) % 65536) s) := hP.runs _ _ _ h
  rcases takeEntry_cases e s with ⟨-, k⟩ | ⟨b, -, ⟨-, k⟩ | ⟨-, held, hr, k⟩ | ⟨-, -, k⟩⟩ <;> rw [k]
  · exact h
  · exact hP.switching _ (hP.frame hruns rfl rfl rfl rfl)
  · rcases reserve_eq e.route ((s.engine.acq + 1) % 65536) (b.acq.len / 1024) (taken e b s) with ⟨-, k⟩ | ⟨-, k⟩
    · rw [k] at hr
      cases hr
    · rw [k] at hr
      cases hr
      exact hP.switching _ (hP.frame hruns rfl rfl rfl rfl)
  · exact hP.leave _ _ _ _ _ (hP.frame h rfl rfl rfl rfl)

theorem handsOut (h : P s) : P (handOut s) := handOut_keeps (fun _ _ h _ => hP.takes _ h) s h

theorem arbitrates (h : P s) : P (arbitrate s) := arbitrate_keeps hP.stopped (fun _ _ h _ => hP.takes _ h) s h

theorem covers (h : P s) : P (coverageReport s) :=
  coverageReport_keeps hP.stopped (fun _ _ h _ => hP.takes _ h) s h

theorem reports (was : RouteNo → Bool) (h : P s) : P (routeReport was s) :=
  routeReport_keeps hP.stopped (fun _ _ h _ => hP.takes _ h) was s h

theorem asks {who : Nat} (hwho : IsRequester who) (r : RouteNo) (k : TestKind) (cls : TestClass) (h : P s) :
    P (askTest who r k cls s).2 := by
  rcases askTest_placed who r k cls s with h' | ⟨hb, -, ⟨e, hm, -, -, -, h'⟩ | ⟨hl, ht, h'⟩⟩ <;> rw [h']
  · exact h
  · rcases joinEntry_cases who cls e s with ⟨-, k⟩ | ⟨-, k⟩ <;> rw [k]
    · exact hP.arbitrates (hP.upgraded _ _ _ hwho hm h)
    · exact hP.joined _ _ _ hwho hm h
  · have hp := hP.placed who r k cls s hwho hb hl ht h
    rcases newEntry_cases (freshId s.queue.entries 33 s.queue.counter) who r k cls s with ⟨-, k⟩ | ⟨-, k⟩ <;> rw [k]
    · exact hP.arbitrates hp
    · exact hP.handsOut hp

theorem reported (r : RouteNo) (c : Condition) (test : Option (Nat × TestKind)) (by_ : Option Client) (h : P s) :
    P (reportChange r c test by_ s) :=
  hP.raise _ _ _ trivial (hP.log _ _ h)

theorem finds (f : Finding) (h : P s) : P (takeFinding f s) := by
  rcases takeFinding_cases f s with k | ⟨b, -, -, ⟨-, k⟩ | ⟨-, -, k⟩ | ⟨-, -, k⟩⟩ <;> rw [k]
  · exact h
  · exact hP.frame h rfl rfl rfl rfl
  · exact hP.reported _ _ _ _ (hP.frame h rfl rfl rfl rfl)
  · exact hP.asks (by decide : 4 < 5) _ _ _ (hP.frame h rfl rfl rfl rfl)

theorem errs (k : EquipKind) (r : Option RouteNo) (h : P s) : P (equipError k r s) :=
  hP.raise _ _ _ trivial (hP.log _ _ (hP.frame h rfl rfl rfl rfl))

theorem returned (h : P s) : P (returnReservation s) :=
  hP.frame h (returnReservation_notices s) (returnReservation_log s) (returnReservation_queue s)
    (returnReservation_portOnly s).routes

theorem finishes (out : TestOutcome) (err : Option EquipKind) (held : Option HeldAnalysis) (j : Option Judgement)
    (h : P s) : P (finishEntry out err held j s) :=
  finishEntry_keeps out err held j s h (fun _ h => hP.returned h) (fun _ _ _ h => hP.errs _ _ h)
    (fun _ _ _ h => hP.frame h rfl rfl rfl rfl) (fun _ _ _ _ _ h => hP.leave _ _ _ _ _ h) fun _ _ _ h => hP.finds _ h

theorem concludes (st : EngineState) (h : P s) : P (concludeIn st s) := hP.handsOut (hP.frame h rfl rfl rfl rfl)

theorem homes (h : P s) : P (homeSwitch s) := by
  unfold homeSwitch
  split
  · exact hP.handsOut (hP.frame h rfl rfl rfl rfl)
  · exact hP.frame h rfl rfl rfl rfl

theorem faults (h : P s) : P (laserFault s) := by
  rcases laserFault_cases s with ⟨-, k⟩ | ⟨-, k⟩ <;> rw [k]
  · exact hP.frame h rfl rfl rfl rfl
  · rcases faultEngine_cases { s with front := { s.front with laser := false } } with ⟨-, k⟩ | ⟨-, k⟩ | ⟨-, k⟩ <;> rw [k]
    · exact hP.concludes _ (hP.finishes _ _ _ _ (hP.frame h rfl rfl rfl rfl))
    · exact hP.frame (hP.errs _ _ (hP.frame h rfl rfl rfl rfl)) rfl rfl rfl rfl
    · exact hP.frame (hP.errs _ _ (hP.frame h rfl rfl rfl rfl)) rfl rfl rfl rfl

theorem fires (len : Nat) (h : P s) : P (startFiring len s) := by
  rcases startFiring_cases len s with ⟨-, k⟩ | ⟨-, k⟩ <;> rw [k]
  · exact hP.frame h rfl rfl rfl rfl
  · exact hP.faults (hP.frame h rfl rfl rfl rfl)

theorem changes (cause : CloseCause) (new : Vector Window 8) (h : P s) : P (changeWindows cause new s) := by
  rcases changeWindows_cases cause new s with ⟨-, k⟩ | ⟨-, k⟩ <;> rw [k]
  · exact hP.frame h rfl rfl rfl rfl
  · exact hP.covers (hP.raise _ _ _ trivial (logWrites_keeps hP.log _ _ (hP.frame h rfl rfl rfl rfl)))

theorem ticks (h : P s) : P (tickClock s) := by
  rcases tickClock_cases s with ⟨-, k⟩ | ⟨-, -, k⟩ | ⟨-, -, -, k⟩ | ⟨-, -, -, k⟩ <;> rw [k]
  · exact h
  · exact hP.frame h rfl rfl rfl rfl
  · exact hP.frame h rfl rfl rfl rfl
  · exact hP.changes _ _ (hP.frame h rfl rfl rfl rfl)

theorem unknowns (r : RouteNo) (c : Client) (h : P s) : P (setUnknown r c s) := by
  rcases setUnknown_cases r c s with ⟨-, k⟩ | ⟨-, k⟩ <;> rw [k]
  · exact hP.frame h rfl rfl rfl rfl
  · exact hP.reported _ _ _ _ (hP.frame h rfl rfl rfl rfl)

theorem defines (c : Client) (r : RouteNo) (d : RouteDef) (h : P s) : P (acceptDefinition c r d s) := by
  have hset : P (setRoute r (definedEntry s.routes[r] d) s) := hP.routed _ _ _ (fun hb => by cases hb) h
  rcases acceptDefinition_cases c r d s with ⟨-, k⟩ | ⟨-, k⟩ <;> rw [k]
  · exact hP.unknowns _ _ (hP.log _ _ (hP.frame hset rfl rfl rfl rfl))
  · exact hP.frame (hP.log _ _ hset) rfl rfl rfl rfl

theorem holds (c : Client) (r : RouteNo) (x : HoldSet) (h : P s) : P (changeHolds c r x s) := by
  have hset : P (setRoute r { s.routes[r] with holds := x } s) := hP.routed _ _ _ id h
  rcases changeHolds_cases c r x s with ⟨-, k⟩ | ⟨-, k⟩ <;> rw [k]
  · exact hP.reports _ (hP.log _ _ hset)
  · exact hP.log _ _ hset

omit hP in
/-- A deletion is made of changes that are each kept, where a route may be emptied without further care. -/
theorem deletes_of_routed {Q : State → Prop} (hroute : ∀ r e s, Q s → Q (setRoute r e s))
    (hframe : ∀ {s t : State}, Q s → t.notices = s.notices → t.log = s.log → t.queue = s.queue → t.routes = s.routes → Q t)
    (hlog : ∀ b s, Q s → Q (logWrite b s)) (hraise : ∀ p k s, k.InRange → Q s → Q (raiseTo p k s))
    (hleave : ∀ e out reqs c s, Q s → Q (leaveQueue e out reqs c s)) (c : Client) (r : RouteNo) (s : State) (h : Q s) :
    Q (acceptDeletion c r s) := by
  rw [acceptDeletion_eq]
  refine removeWaiting_keeps r (fun _ _ h => hleave _ _ _ _ _ h) _ ?_
  have hdel := hlog (.routeChange r c .deleted) _ (hframe (t := freeBlocks (baselineBlocks s.routes[r])
    (setRecord r none (setRoute r (deletedEntry s.routes[r]) s))) (hroute r (deletedEntry s.routes[r]) s h) rfl rfl rfl rfl)
  rcases setUnknown_cases r c (logWrite (.routeChange r c .deleted) (freeBlocks (baselineBlocks s.routes[r])
    (setRecord r none (setRoute r (deletedEntry s.routes[r]) s)))) with ⟨-, k⟩ | ⟨-, k⟩ <;> rw [k]
  · exact hframe hdel rfl rfl rfl rfl
  · exact hraise _ _ _ trivial (hlog _ _ (hframe hdel rfl rfl rfl rfl))

theorem edits (i : WindowNo) (w : WindowSettings) (h : P s) : P (acceptWindow i w s) := by
  rcases acceptWindow_cases i w s with ⟨-, k⟩ | ⟨-, k⟩ | ⟨-, k⟩ <;> rw [k]
  · exact hP.changes _ _ h
  · exact hP.covers (hP.frame h rfl rfl rfl rfl)
  · exact hP.frame h rfl rfl rfl rfl

theorem leavesFaulted (h : P s) : P (leaveFaulted s) := by
  unfold leaveFaulted
  split
  · exact hP.frame h rfl rfl rfl rfl
  · exact hP.homes h

omit hP in
theorem bitOf_lt_five (c : Client) : IsRequester (bitOf c) := by
  cases c <;> (unfold IsRequester; decide)

omit hP in
theorem freeMark_inRange (ms : List Mark) : (Notice.mark (freeMark ms)).InRange := by
  unfold Notice.InRange freeMark
  cases hf : (List.range 4).find? fun n => !ms.any fun m => m.number == n with
  | none => decide
  | some n => simpa using List.mem_of_find?_eq_some hf

/-! ### Every request and every event -/

theorem work {c : Client} {wf : Prop} {code : Nat} (h : Work c wf code s t) (hs : P s) : P t := by
  induction h with
  | nothing => exact hs
  | test r k cl => exact hP.asks (bitOf_lt_five c) _ _ _ hs
  | testGone r k cl => exact hP.frame (hP.asks (bitOf_lt_five c) r k cl hs) rfl rfl rfl rfl
  | cancelKept e mem left => exact hP.withdrawn _ _ _ mem left hs
  | cancelWaiting e => exact hP.leave _ _ _ _ _ hs
  | cancelRunning e =>
    exact hP.handsOut (hP.leave _ _ _ _ _ (hP.frame hs (stopAcquisition_notices s) (stopAcquisition_log s)
      (stopAcquisition_queue s) (stopAcquisition_portOnly s).routes))
  | markDone => exact hP.raise _ _ _ (freeMark_inRange _) hs
  | markOpens free waits => exact hP.opened _ _ free waits hs
  | define r d => exact hP.defines _ _ _ hs
  | delete r defined free => exact hP.deletes _ _ _ free hs
  | holds r h => exact hP.holds _ _ _ hs
  | window i d w => exact hP.edits _ _ hs
  | setClock => exact hP.log _ _ (hP.frame hs rfl rfl rfl rfl)
  | startClock => exact hP.log _ _ (hP.frame hs rfl rfl rfl rfl)
  | setAndStart set stopped ih => exact hP.log _ _ (hP.frame ih rfl rfl rfl rfl)
  | stopClock => exact hP.changes _ _ (hP.log _ _ (hP.frame hs rfl rfl rfl rfl))
  | setNotices p new t settings limit => exact hP.switches _ _ _ _ _ settings limit hs
  | thresholdReached set ih => exact hP.raise _ _ _ trivial ih
  | clearNotices p => exact hP.cleared _ _ _ hs
  | readLog => exact hP.read _ _ hs
  | setBarred p d => exact hP.reports _ (hP.frame hs rfl rfl rfl rfl)
  | leaveFaulted => exact hP.leavesFaulted (hP.frame hs rfl rfl rfl rfl)
  | setDevice | clearEquipment | arm => exact hP.frame hs rfl rfl rfl rfl

theorem endsReset (k : ResetKind) (h : P s) : P (endReset k s) := by
  have hin : P (inService k s) := hP.log _ _ (hP.frame h rfl rfl rfl rfl)
  rw [endReset_eq]
  split
  · exact hin
  · exact hP.homes hin

theorem cutsOff (h : P s) : P (cutOffEnds s) := by
  unfold cutOffEnds resumeHoming
  split
  · exact hP.homes (hP.frame h rfl rfl rfl rfl)
  · exact hP.frame h rfl rfl rfl rfl

theorem commits (run : Running) (r : Reservation) (x : HeldAnalysis) (h : P s) : P (commitCapture run r x s) := by
  rcases commitCapture_cases run r x s with ⟨-, k⟩ | ⟨b, -, k⟩ <;> rw [k]
  · exact hP.frame h rfl rfl rfl rfl
  · have hset : P (committedState run.route b r x s) := hP.routed _ _ _ (fun hb => by cases hb) h
    rcases captureClear_cases run.route run.id r.acq x.time { committedState run.route b r x s with
      store := { s.store with free := giveBack (baselineBlocks s.routes[run.route]) s.store.free, resv := none } }
      with ⟨-, k⟩ | ⟨-, k⟩ <;> rw [k]
    · exact hP.frame hset rfl rfl rfl rfl
    · exact hP.reported _ _ _ _ (hP.frame hset rfl rfl rfl rfl)

theorem effect {wf : Prop} (h : Effect wf s t) (hs : P s) : P t := by
  induction h with
  | nothing s => exact hs
  | assembly c a | sent c | turnedAway c tag code st => exact hP.frame hs rfl rfl rfl rfl
  | framed c line after ih => exact ih (hP.frame hs rfl rfl rfl rfl)
  | busy c tag =>
    unfold refuseBusy
    dsimp only
    split <;> exact hP.frame hs rfl rfl rfl rfl
  | served c tag r ready may fits => exact hP.frame (hP.work (ownerOf_work r _ may fits) hs) rfl rfl rfl rfl
  | craftReset line => exact hP.endsReset _ (hP.reset _ rfl rfl rfl)
  | shelfReset line | powerOnHeld line => exact hP.reset _ rfl rfl rfl
  | release k line => exact hP.endsReset _ hs
  | powerOn line => exact hP.endsReset _ (hP.reset _ rfl rfl rfl)
  | homed state timer => exact hP.concludes _ (hP.frame hs rfl rfl rfl rfl)
  | stuck state => exact hP.homes (hP.finishes _ _ _ _ hs)
  | homeFailed state timer => exact hP.frame (hP.errs _ _ hs) rfl rfl rfl rfl
  | liveLight run rec | acqTimeout state | analysed run f cells out j | storeError r w data =>
    exact hP.concludes _ (hP.finishes _ _ _ _ (hP.frame hs rfl rfl rfl rfl))
  | fires run rec => exact hP.fires _ (hP.frame hs rfl rfl rfl rfl)
  | captured r w data run h => exact hP.concludes _ (hP.finishes _ _ _ _ (hP.commits _ _ _ (hP.frame hs rfl rfl rfl rfl)))
  | cutOffGood r w data | cutOffFailed r w data => exact hP.cutsOff (hP.frame hs rfl rfl rfl rfl)
  | laserFault s => exact hP.faults (hP.frame hs rfl rfl rfl rfl)
  | pulseEnds s c => exact hP.pulse _ _ hs
  | tick s => exact hP.ticks hs
  | arrived | settled | shot | lastShot | commits | nextWrite | faultEnds => exact hP.frame hs rfl rfl rfl rfl

/-- What the small changes keep, every step keeps. -/
theorem step (hs : P s) (hstep : Machine.step s = .next t) : P t :=
  step_keeps (fun _ _ h => hP.frame h rfl rfl rfl rfl) (fun h => hP.effect h) hs hstep

end

end CardStable

end Sys2Proof.Machine
end

section
/-!
The laws of the attention lines and of the Result Log: what the raises, the log writes and the changes of the open marks keep.
-/
namespace Sys2Proof.Machine

/-- `P` looks at notices, log and open marks alone, and is kept by each of the small changes the card makes to them. -/
structure NoticeStable (P : State → Prop) : Prop where
  frame : ∀ {s t : State}, P s → t.notices = s.notices → t.log = s.log → t.queue.marks = s.queue.marks → P t
  log : ∀ b s, P s → P (logWrite b s)
  raise : ∀ p k s, k.InRange → P s → P (raiseTo p k s)
  drop : ∀ c id s, P s → P (dropFromMarks c id s)
  absorbed : ∀ a b s, P s → P (absorb a b s)
  opened : ∀ c wait s, (perGet s.queue.marks c).length < 4 → P s → P { s with queue := { s.queue with
    marks := perSet s.queue.marks c (insertMark { number := freeMark (perGet s.queue.marks c), wait := wait }
      (perGet s.queue.marks c)) } }
  switches : ∀ c p new t s, noticeSettingsOf p (perGet s.notices c).settings = some new →
    partOf positiveByteOf (perGet s.log.readers c).threshold p.threshold = some t → P s →
      P (setReader c { perGet s.log.readers c with threshold := t }
        (setNotice c (applySettings new (perGet s.notices c)) s))
  cleared : ∀ c p s, P s → P (setNotice c (clearTo p (perGet s.notices c)) s)
  read : ∀ c s, P s → P (setReader c { perGet s.log.readers c with
      cursor := ((perGet s.log.readers c).cursor
        + ((unreadEntries s.log (perGet s.log.readers c)).take 8).length) % 65536, overrun := false } s)
  pulse : ∀ c s, P s → P { s with notices := perSet s.notices c (endPulse (perGet s.notices c)) }
  reset : ∀ s : State, s.notices = PerClient.const NoticeState.reset →
    s.log = { ring := [], next := 0, readers := PerClient.const LogReader.reset } →
      s.queue.marks = PerClient.const [] → P s

theorem NoticeStable.leave {P : State → Prop} (hP : NoticeStable P) {s : State} (e : Entry) (out : TestOutcome)
    (reqs : RequesterSet) (c : Option Client) (h : P s) : P (leaveQueue e out reqs c s) :=
  leaveQueue_keeps e out reqs c s h (fun _ h => hP.frame h rfl rfl rfl) hP.log hP.raise fun d => hP.drop d e.id

theorem NoticeStable.stopped {P : State → Prop} (hP : NoticeStable P) {s : State} (h : P s) : P (stopRunning s) := by
  rcases stopRunning_cases s with h' | ⟨e, -, -, h'⟩ <;> rw [h']
  · exact h
  · have hmarks : (stopAcquisition s).queue.marks = s.queue.marks := congrArg Queue.marks (stopAcquisition_queue s)
    have hwaits := hP.frame (t := waitingState e.id (stopAcquisition s)) h
      (stopAcquisition_notices s) (stopAcquisition_log s) hmarks
    rcases mergeTwins_eq e.route e.kind (waitingState e.id (stopAcquisition s)) with
      k | ⟨a, b, _, -, k⟩ <;> rw [k]
    · exact hwaits
    · exact hP.absorbed a b _ hwaits

/-- What looks at notices, log and open marks alone is a property of the card that every command keeps. -/
theorem NoticeStable.cardStable {P : State → Prop} (hP : NoticeStable P) : CardStable P where
  frame h hn hl hq _ := hP.frame h hn hl (by rw [hq])
  log := hP.log
  raise := hP.raise
  leave _ _ _ _ _ h := hP.leave _ _ _ _ h
  runs _ _ _ h := hP.frame h rfl rfl rfl
  stopped _ h := hP.stopped h
  joined _ _ _ _ _ h := hP.frame h rfl rfl rfl
  upgraded _ _ _ _ _ h := hP.frame h rfl rfl rfl
  placed _ _ _ _ _ _ _ _ _ h := hP.frame h rfl rfl rfl
  withdrawn c e _ _ _ h := hP.drop c e.id _ (hP.frame h rfl rfl rfl)
  opened c s free _ h := hP.opened c _ s free h
  switches := hP.switches
  cleared := hP.cleared
  read := hP.read
  pulse := hP.pulse
  reset s hn hl hq := hP.reset s hn hl (by rw [hq]; rfl)
  routed _ _ _ _ h := hP.frame h rfl rfl rfl
  deletes c r s _ h := CardStable.deletes_of_routed (fun _ _ _ h => hP.frame h rfl rfl rfl)
    (fun h hn hl hq _ => hP.frame h hn hl (by rw [hq])) hP.log hP.raise (fun _ _ _ _ _ h => hP.leave _ _ _ _ h) c r s h

/-! ### The Result Log (R169, R171, R173) -/

theorem LogLaw.of_eq {s t : State} (h : LogLaw s) (hl : t.log = s.log) : LogLaw t := by
  unfold LogLaw
  rw [hl]
  exact h

/-- A write keeps the numbers consecutive and every reader within the ring (R169, R171). -/
theorem LogLaw.write {s : State} (b : LogBody) (h : LogLaw s) : LogLaw (logWrite b s) := by
  obtain ⟨hlen, hnext, hnum, hreaders⟩ := h
  have hring := logAfterWrite_length s.clock.now b s.log hlen
  refine ⟨?_, ?_, fun i hi => ?_, fun c => ?_⟩
  · rw [logWrite_log, hring]
    exact min_le_left _ _
  · exact Nat.mod_lt _ (by decide)
  · have hi' : i < min 256 (s.log.ring.length + 1) := hring ▸ hi
    simp only [logWrite_log, logAfterWrite_ring, logAfterWrite_next, List.getElem_append, List.length_append,
      List.length_singleton]
    by_cases hfull : 256 ≤ s.log.ring.length
    · simp only [if_pos hfull, List.length_drop]
      split
      · simp only [List.getElem_drop]
        rw [hnum (1 + i) (by omega)]
        omega
      · simp only [List.getElem_singleton]
        omega
    · simp only [if_neg hfull]
      split
      · rw [hnum i (by omega)]
        omega
      · simp only [List.getElem_singleton]
        omega
  · obtain ⟨hc, hu, h1, h255⟩ := hreaders c
    rw [logWrite_log, logAfterWrite_readers, hring]
    simp only [readerAfterWrite_threshold]
    simp only [unreadCount, logAfterWrite_next] at hu ⊢
    unfold readerAfterWrite oldestNumber
    split
    · dsimp only
      omega
    · omega

/-- A reader is moved to one within the ring. -/
theorem LogLaw.setReader {s : State} (h : LogLaw s) (c : Client) {r : LogReader} (hc : r.cursor < 65536)
    (hu : unreadCount s.log r ≤ s.log.ring.length) (h1 : 1 ≤ r.threshold) (h255 : r.threshold ≤ 255) :
    LogLaw (setReader c r s) := by
  obtain ⟨hlen, hnext, hnum, hreaders⟩ := h
  refine ⟨hlen, hnext, hnum, fun d => ?_⟩
  show (perGet (perSet s.log.readers c r) d).cursor < 65536
    ∧ unreadCount s.log (perGet (perSet s.log.readers c r) d) ≤ s.log.ring.length
    ∧ 1 ≤ (perGet (perSet s.log.readers c r) d).threshold ∧ (perGet (perSet s.log.readers c r) d).threshold ≤ 255
  rw [perGet_perSet]
  split
  · exact ⟨hc, hu, h1, h255⟩
  · exact hreaders d

theorem positiveByteOf_eq_some {n k : Nat} (h : positiveByteOf n = some k) : 1 ≤ k ∧ k ≤ 255 := by
  unfold positiveByteOf at h
  split_ifs at h with hn
  cases h
  exact hn

theorem partOf_positive {o : Option Nat} {cur k : Nat} (h : partOf positiveByteOf cur o = some k) (h1 : 1 ≤ cur)
    (h255 : cur ≤ 255) : 1 ≤ k ∧ k ≤ 255 := by
  cases o with
  | none => cases h; exact ⟨h1, h255⟩
  | some n => exact positiveByteOf_eq_some h

theorem LogLaw.readLog {s : State} (h : LogLaw s) (c : Client) :
    LogLaw (Machine.setReader c { perGet s.log.readers c with
      cursor := ((perGet s.log.readers c).cursor
        + ((unreadEntries s.log (perGet s.log.readers c)).take 8).length) % 65536, overrun := false } s) := by
  obtain ⟨hc, hu, h1, h255⟩ := h.2.2.2 c
  refine h.setReader c (Nat.mod_lt _ (by decide)) ?_ h1 h255
  have hnext := h.2.1
  simp only [unreadEntries, unreadCount, List.length_take, List.length_drop] at hu ⊢
  omega

theorem logLaw_empty {s : State} (h : s.log = { ring := [], next := 0, readers := PerClient.const LogReader.reset }) :
    LogLaw s := by
  unfold LogLaw
  rw [h]
  refine ⟨by decide, by decide, fun i hi => absurd hi (Nat.not_lt_zero i), fun c => ?_⟩
  simp [LogReader.reset, unreadCount]

theorem logLaw_noticeStable : NoticeStable LogLaw where
  frame h _ hl _ := h.of_eq hl
  log b _ h := h.write b
  raise _ _ _ _ h := h.of_eq rfl
  drop c id s h := h.of_eq (dropFromMarks_queue c id s).2.2
  absorbed _ _ _ h := h.of_eq rfl
  opened _ _ _ _ h := h.of_eq rfl
  switches c p new t s _ limit h := by
    obtain ⟨hc, hu, h1, h255⟩ := h.2.2.2 c
    obtain ⟨k1, k255⟩ := partOf_positive limit h1 h255
    exact LogLaw.setReader (s := setNotice c _ s) (h.of_eq rfl) c hc hu k1 k255
  cleared _ _ _ h := h.of_eq rfl
  read c _ h := h.readLog c
  pulse _ _ h := h.of_eq rfl
  reset _ _ hl _ := logLaw_empty hl

/-- Settles O6: a write and a read keep the law, and nothing else touches the log. -/
theorem everyStepKeepsLogLaw : Obligations.EveryStepKeepsLogLaw := fun _ _ h hstep => logLaw_noticeStable.cardStable.step h hstep

/-! ### The attention lines (R165, R166) -/

theorem LineOk.raised {n : NoticeState} {k : Notice} (h : LineOk n) (hk : k.InRange) : LineOk (raiseNotice k n) := by
  obtain ⟨hpos, hmax, hpulse, hline⟩ := h
  unfold raiseNotice
  split
  · split
    · rename_i hm
      rw [hm] at hline
      refine ⟨hpos, hmax, hpulse, ?_⟩
      dsimp only
      rw [hm]
      exact ⟨(anyPending_setItem _ _ hk).symm, hline.2⟩
    · rename_i hm
      rw [hm] at hline
      split
      · refine ⟨hpos, hmax, hpulse, ?_⟩
        dsimp only
        rw [hm]
        exact hline
      · refine ⟨hpos, hmax, ?_, ?_⟩
        · rintro k ⟨⟩
          exact ⟨hpos, hmax⟩
        · dsimp only
          rw [hm]
          rfl
  · exact ⟨hpos, hmax, hpulse, hline⟩

theorem LineOk.cleared {n : NoticeState} (h : LineOk n) (p : Pending) : LineOk (clearTo p n) := by
  obtain ⟨hpos, hmax, hpulse, hline⟩ := h
  unfold clearTo
  split <;> rename_i hm <;> rw [hm] at hline <;> refine ⟨hpos, hmax, hpulse, ?_⟩ <;> dsimp only <;> rw [hm]
  · exact ⟨rfl, hline.2⟩
  · exact hline

theorem LineOk.pulseEnds {n : NoticeState} (h : LineOk n) : LineOk (endPulse n) := by
  obtain ⟨hpos, hmax, hpulse, hline⟩ := h
  unfold endPulse
  split
  · exact ⟨hpos, hmax, hpulse, hline⟩
  · rename_i k hk
    refine ⟨hpos, hmax, by simp, ?_⟩
    dsimp only
    cases hm : n.settings.lineMode with
    | level =>
      rw [hm] at hline
      exact absurd (hk.symm.trans hline.2) (by simp)
    | pulse => rfl

theorem noticeSettingsOf_pulseLen {p : NoticeParts} {cur new : NoticeSettings} (h : noticeSettingsOf p cur = some new)
    (hpos : 1 ≤ cur.pulseLen) (hmax : cur.pulseLen ≤ 255) : 1 ≤ new.pulseLen ∧ new.pulseLen ≤ 255 := by
  unfold noticeSettingsOf at h
  simp only [Option.bind_eq_bind, Option.bind_eq_some_iff, Option.some.injEq] at h
  obtain ⟨_, -, _, -, _, -, _, -, _, -, _, -, _, -, _, -, k, hk, rfl⟩ := h
  exact partOf_positive hk hpos hmax

theorem LineOk.switched {n : NoticeState} {new : NoticeSettings} (h : LineOk n)
    (hnew : 1 ≤ new.pulseLen ∧ new.pulseLen ≤ 255) : LineOk (applySettings new n) := by
  obtain ⟨-, -, hpulse, hline⟩ := h
  obtain ⟨hpos, hmax⟩ := hnew
  unfold applySettings
  cases hm : n.settings.lineMode <;> rw [hm] at hline <;> cases hn : new.lineMode <;> refine ⟨hpos, hmax, ?_, ?_⟩ <;>
    simp_all

theorem LineLaw.of_eq {s t : State} (h : LineLaw s) (hn : t.notices = s.notices) (hm : t.queue.marks = s.queue.marks) :
    LineLaw t := by
  unfold LineLaw
  rw [hn, hm]
  exact h

theorem LineLaw.setNotice {s : State} (h : LineLaw s) (c : Client) {n : NoticeState} (hn : LineOk n) :
    LineLaw (setNotice c n s) := by
  refine ⟨fun d => ?_, h.2⟩
  show LineOk (perGet (perSet s.notices c n) d)
  rw [perGet_perSet]
  split
  · exact hn
  · exact h.1 d

theorem LineLaw.raised {s : State} (h : LineLaw s) (p : Client → Bool) {k : Notice} (hk : k.InRange) :
    LineLaw (raiseTo p k s) := by
  refine ⟨fun d => ?_, h.2⟩
  rw [perGet_raiseTo]
  split
  · exact (h.1 d).raised hk
  · exact h.1 d

theorem raisesOf_lineOk {ks : List Notice} (hks : ∀ k ∈ ks, k.InRange) {n : NoticeState} (h : LineOk n) :
    LineOk (raisesOf ks n) := by
  induction ks generalizing n with
  | nil => exact h
  | cons k ks ih =>
    exact ih (fun x hx => hks x (List.mem_cons_of_mem _ hx)) (h.raised (hks k List.mem_cons_self))

theorem mem_keptMarks {id : Nat} {ms : List Mark} {m : Mark} (h : m ∈ keptMarks id ms) :
    ∃ x ∈ ms, m = { x with wait := x.wait.filter (· != id) } ∧ m.wait ≠ [] := by
  simp only [keptMarks, List.mem_filter, List.mem_map] at h
  obtain ⟨⟨x, hx, rfl⟩, hne⟩ := h
  exact ⟨x, hx, rfl, by simpa using hne⟩

theorem LineLaw.dropped {s : State} (h : LineLaw s) (c : Client) (id : Nat) : LineLaw (dropFromMarks c id s) := by
  refine ⟨fun d => ?_, fun d m hm => ?_⟩
  · rw [dropFromMarks_notices]
    split
    · refine raisesOf_lineOk (fun k hk => ?_) (h.1 d)
      simp only [markRaises, completedMarks, List.map_map, List.mem_map, List.mem_filter] at hk
      obtain ⟨m, ⟨hm, -⟩, rfl⟩ := hk
      exact h.2 c m hm
    · exact h.1 d
  · rw [dropFromMarks_marks] at hm
    split at hm
    · obtain ⟨x, hx, rfl, -⟩ := mem_keptMarks hm
      exact h.2 d x hx
    · exact h.2 d m hm

theorem mem_insertMark {m x : Mark} {ms : List Mark} : x ∈ insertMark m ms ↔ x = m ∨ x ∈ ms := by
  unfold insertMark
  rw [List.mem_append, List.mem_cons]
  conv_rhs => rw [← List.takeWhile_append_dropWhile (p := fun y : Mark => decide (y.number < m.number)) (l := ms),
    List.mem_append]
  tauto

theorem LineLaw.setMarks {s : State} (h : LineLaw s) (c : Client) {ms : List Mark} (hms : ∀ m ∈ ms, m.number < 4) :
    LineLaw { s with queue := { s.queue with marks := perSet s.queue.marks c ms } } := by
  refine ⟨h.1, fun d m hm => ?_⟩
  have hm' : m ∈ perGet (perSet s.queue.marks c ms) d := hm
  rw [perGet_perSet] at hm'
  split at hm'
  · exact hms m hm'
  · exact h.2 d m hm'

theorem lineOk_reset : LineOk NoticeState.reset := by
  refine ⟨by decide, by decide, by simp [NoticeState.reset], ?_⟩
  exact ⟨by decide, rfl⟩

theorem lineLaw_noticeStable : NoticeStable LineLaw where
  frame h hn _ hm := h.of_eq hn hm
  log b s h := LineLaw.raised (s := { s with log := logAfterWrite s.clock.now b s.log }) (h.of_eq rfl rfl) _ trivial
  raise p _ _ hk h := h.raised p hk
  drop c id _ h := h.dropped c id
  absorbed a b s h := by
    refine ⟨h.1, fun c m hm => ?_⟩
    simp only [absorb, perGet_perGen, List.mem_map] at hm
    obtain ⟨x, hx, rfl⟩ := hm
    exact h.2 c x hx
  opened c wait s _ h := by
    refine h.setMarks c fun m hm => ?_
    rcases mem_insertMark.mp hm with rfl | hm
    · exact CardStable.freeMark_inRange _
    · exact h.2 c m hm
  switches c p new t s settings _ h :=
    (h.setNotice c ((h.1 c).switched (noticeSettingsOf_pulseLen settings (h.1 c).1 (h.1 c).2.1))).of_eq rfl rfl
  cleared c p _ h := h.setNotice c ((h.1 c).cleared p)
  read _ _ h := h.of_eq rfl rfl
  pulse c _ h := h.setNotice c (h.1 c).pulseEnds
  reset s hn _ hm := by
    unfold LineLaw
    rw [hn, hm]
    refine ⟨fun c => ?_, by simp⟩
    rw [perGet_const]
    exact lineOk_reset

/-- Settles O5: each raise, read, acknowledge, pulse and change of the mode leaves the line as its mode says. -/
theorem everyStepKeepsLineLaw : Obligations.EveryStepKeepsLineLaw := fun _ _ h hstep => lineLaw_noticeStable.cardStable.step h hstep

end Sys2Proof.Machine
end

section
/-!
The routes and their conditions (O8): what a definition, a deletion and a commit leave of the Route Table, and what a finding, a
definition and the repair of a reset leave of the Condition Tracker.
-/
namespace Sys2Proof.Machine

/-! ### The ranges of Table 4-1 (R65 to R67) -/

theorem clamp_bounds {lo hi : Nat} (h : lo ≤ hi) (n : Nat) : lo ≤ clamp lo hi n ∧ clamp lo hi n ≤ hi := by
  unfold clamp
  omega

/-- What a definition that names no refused field has in range (R65). -/
theorem refusedField_eq_none {d : RouteDef} (h : refusedField d = none) :
    labelRefused d.label = false ∧ d.pulse ≤ 5 ∧ d.spacing ≤ 4
      ∧ (1024 ≤ d.len ∧ d.len ≤ 32768 ∧ d.len % 1024 = 0) ∧ (4 ≤ d.shots ∧ d.shots ≤ 16)
      ∧ (14000 ≤ d.index ∧ d.index ≤ 15500) ∧ d.dead ≤ 1023 := by
  unfold refusedField at h
  split_ifs at h with h1 h2 h3 h4 h5 h6 h7
  refine ⟨by simpa using h1, ?_, ?_, ?_, ?_, ?_, ?_⟩ <;> omega

theorem storedLabel_ok {l : Option (List Nat)} (h : labelRefused l = false) {cs : List Nat} (hs : storedLabel l = some cs) :
    1 ≤ cs.length ∧ cs.length ≤ 16 ∧ ∀ ch ∈ cs, 0x20 ≤ ch ∧ ch ≤ 0x7E := by
  unfold storedLabel at hs
  split at hs
  · cases hs
    simp only [labelRefused, Bool.or_eq_false_iff, decide_eq_false_iff_not, List.any_eq_false, Bool.or_eq_true,
      decide_eq_true_eq, not_or, Nat.not_lt] at h
    exact ⟨Nat.le_add_left 1 _, h.1, h.2⟩
  · cases hs

/-- The body that an accepted definition stores is as Table 4-1 and R67 say. -/
theorem definedBody_ok {d : RouteDef} (values : refusedField d = none)
    (zone : deadZone (acqOf d) d.dead + 2 * (judgingOf d).width ≤ d.len) (b : Option Baseline) :
    RouteOk { label := storedLabel d.label, acq := acqOf d, judging := judgingOf d, baseline := b } := by
  obtain ⟨hlabel, hpulse, hspacing, ⟨hlen1, hlen2, hlen3⟩, ⟨hsh1, hsh2⟩, ⟨hix1, hix2⟩, hdead⟩ := refusedField_eq_none values
  have hw := clamp_bounds (show 1 ≤ 32 by decide) d.width
  have hl := clamp_bounds (show 5 ≤ 1000 by decide) d.tLoss
  have ht := clamp_bounds (show 10 ≤ 3000 by decide) d.tTotal
  have he := clamp_bounds (show 1 ≤ 255 by decide) d.tEnd
  have hr := clamp_bounds (show 50 ≤ 2000 by decide) d.tReflect
  have hf := clamp_bounds (show 0 ≤ 1000 by decide) d.floor
  have hc := clamp_bounds (show 1 ≤ 4 by decide) d.confirm
  exact ⟨hpulse, hspacing, hlen1, hlen2, hlen3, hsh1, hsh2, hix1, hix2, hdead, hw.1, hw.2, hl.1, hl.2, ht.1, ht.2, he.1,
    he.2, hr.1, hr.2, hf.2, hc.1, hc.2, zone, fun cs hcs => storedLabel_ok hlabel hcs⟩

/-- A baseline is no part of what Table 4-1 ranges. -/
theorem RouteOk.withBaseline {b : RouteBody} (h : RouteOk b) (x : Option Baseline) : RouteOk { b with baseline := x } := h

section
variable {s t u : State}

theorem RouteLaw.of_eq (h : RouteLaw s) (hr : t.routes = s.routes) : RouteLaw t := by
  unfold RouteLaw
  rw [hr]
  exact h

theorem RouteLaw.upTo (h : RouteLaw t) (k : FinishOnly t u) : RouteLaw u := h.of_eq k.routes

theorem RouteLaw.setRoute (h : RouteLaw s) (r : RouteNo) {e : RouteEntry} (he : ∀ b, e.body = some b → RouteOk b) :
    RouteLaw (setRoute r e s) := by
  intro i b hb
  rw [setRoute_routes, getFin_set] at hb
  split at hb
  · exact he b hb
  · exact h i b hb

theorem RouteLaw.work {c : Client} {wf : Prop} {code : Nat} (h : Work c wf code s t) (hl : RouteLaw s) : RouteLaw t := by
  induction h with
  | nothing => exact hl
  | test r k cl => exact hl.of_eq (askTest_portOnly _ _ _ _ _).routes
  | testGone r k cl => exact hl.of_eq (askTest_portOnly (bitOf c) r k cl s).routes
  | cancelKept e => exact hl.of_eq ((setEntries_queueOnly _ _).trans (dropFromMarks_queueOnly _ _ _)).routes
  | cancelWaiting e => exact hl.of_eq (leaveQueue_queueOnly _ _ _ _ _).routes
  | cancelRunning e =>
    exact hl.of_eq (((stopAcquisition_portOnly _).trans (leaveQueue_queueOnly _ _ _ _ _).port).trans
      (handOut_portOnly _)).routes
  | define r d values zone =>
    refine RouteLaw.upTo (hl.setRoute r fun b hb => ?_) (acceptDefinition_finishOnly _ _ _ _)
    obtain rfl := Option.some.inj hb
    exact definedBody_ok values zone _
  | delete r => exact RouteLaw.upTo (hl.setRoute r fun b hb => by cases hb) (acceptDeletion_finishOnly _ _ _)
  | holds r h =>
    refine RouteLaw.upTo ?_ (changeHolds_portOnly _ _ _ _).finish
    exact hl.setRoute r fun b hb => hl r b hb
  | window i d w => exact hl.of_eq (acceptWindow_portOnly _ _ _).routes
  | setAndStart set _ ih => exact ih.of_eq rfl
  | stopClock => exact hl.of_eq (changeWindows_portOnly _ _ _).routes
  | thresholdReached set ih => exact ih.of_eq rfl
  | setBarred p d => exact hl.of_eq (routeReport_portOnly _ _).routes
  | leaveFaulted => exact hl.of_eq (leaveFaulted_portOnly _).routes
  | markDone | markOpens | setClock | startClock | setNotices | clearNotices | readLog | setDevice | clearEquipment
  | arm => exact hl.of_eq rfl

theorem RouteLaw.committed (h : RouteLaw s) (run : Running) (r : Reservation) (x : HeldAnalysis) :
    RouteLaw (commitCapture run r x s) := by
  rcases commitCapture_finishOnly run r x s with ⟨-, k⟩ | ⟨b, hb, k⟩
  · exact h.upTo k
  · refine RouteLaw.upTo (h.setRoute run.route fun b' hb' => ?_) k
    obtain rfl := Option.some.inj hb'
    exact (h run.route b hb).withBaseline _

theorem RouteLaw.effect {wf : Prop} (h : Effect wf s t) (hl : RouteLaw s) : RouteLaw t := by
  induction h with
  | nothing s => exact hl
  | framed c line after ih => exact ih (hl.of_eq rfl)
  | busy c tag =>
    unfold refuseBusy
    dsimp only
    split <;> exact hl.of_eq rfl
  | served c tag r ready may fits => exact (RouteLaw.work (ownerOf_work r _ may fits) hl).of_eq rfl
  | craftReset line => exact hl.of_eq ((endReset_finishOnly _ _).routes.trans (beginReset_routes _))
  | shelfReset line => exact hl.of_eq (beginReset_routes _)
  | release k line => exact hl.of_eq (endReset_finishOnly _ _).routes
  | powerOnHeld line => exact hl.of_eq (powerLoss_routes _)
  | powerOn line => exact hl.of_eq ((endReset_finishOnly _ _).routes.trans (powerLoss_routes _))
  | homed state timer => exact hl.of_eq (concludeIn_portOnly _ _).routes
  | stuck state => exact hl.of_eq ((finishEntry_finishOnly _ _ _ _ _).trans (homeSwitch_portOnly _).finish).routes
  | liveLight run rec | acqTimeout state | analysed run f cells out j | storeError r w data =>
    exact hl.of_eq (concludeIn_finishEntry_finishOnly _ _ _ _ _ _).routes
  | fires run rec => exact hl.of_eq (startFiring_finishOnly _ _).routes
  | captured r w data run h =>
    exact RouteLaw.upTo (RouteLaw.committed (s := writeDone _ _ _) (hl.of_eq rfl) run r h)
      (concludeIn_finishEntry_finishOnly _ _ _ _ _ _)
  | cutOffGood r w data | cutOffFailed r w data => exact hl.of_eq (cutOffEnds_portOnly _).routes
  | laserFault s => exact hl.of_eq (laserFault_finishOnly _).routes
  | tick s =>
    rcases tickClock_cases s with ⟨-, h⟩ | ⟨-, -, h⟩ | ⟨-, -, -, h⟩ | ⟨-, -, -, h⟩ <;> rw [h]
    · exact hl
    · exact hl.of_eq rfl
    · exact hl.of_eq rfl
    · exact hl.of_eq (changeWindows_portOnly _ _ _).routes
  | assembly | sent | turnedAway | arrived | settled | homeFailed | shot | lastShot | commits | nextWrite | faultEnds
  | pulseEnds => exact hl.of_eq rfl

/-! ### Conditions (R127) -/

theorem routeStatus_eq_baselined_iff {e : RouteEntry} :
    routeStatus e = .baselined ↔ ∃ b, e.body = some b ∧ b.baseline.isSome = true := by
  unfold routeStatus
  cases hb : e.body with
  | none => simp
  | some b => by_cases hx : b.baseline.isSome = true <;> simp [hx]

/-- What R127 says of one route: its entry, its fault record and its candidate. -/
def CondOk (e : RouteEntry) (f : FaultRecord) (k : Option Candidate) : Prop :=
  (f.cond = .unknown ↔ routeStatus e ≠ .baselined)
    ∧ ∀ x, k = some x → x.cond ≠ .unknown ∧ x.cond ≠ f.cond ∧ 1 ≤ x.agree
        ∧ ∃ b, e.body = some b ∧ b.baseline.isSome = true ∧ x.agree < b.judging.confirm

theorem conditionLaw_iff : ConditionLaw s ↔ ∀ r : RouteNo, CondOk s.routes[r] s.faults[r] s.cands[r] := Iff.rfl

theorem ConditionLaw.of_eq (h : ConditionLaw s) (hr : t.routes = s.routes) (hf : t.faults = s.faults)
    (hc : t.cands = s.cands) : ConditionLaw t := by
  unfold ConditionLaw
  rw [hr, hf, hc]
  exact h

theorem ConditionLaw.port (h : ConditionLaw s) (k : PortOnly s t) : ConditionLaw t := h.of_eq k.routes k.faults k.cands

/-- A frame up to fields that the conditions do not look at. -/
theorem ConditionLaw.upTo (h : ConditionLaw s) (k : PortOnly t u) (hr : t.routes = s.routes) (hf : t.faults = s.faults)
    (hc : t.cands = s.cands) : ConditionLaw u :=
  h.of_eq (k.routes.trans hr) (k.faults.trans hf) (k.cands.trans hc)

/-- A change of one route that leaves the others as they are. -/
theorem ConditionLaw.at (h : ConditionLaw s) (r : RouteNo)
    (hothers : ∀ i : RouteNo, i ≠ r → t.routes[i] = s.routes[i] ∧ t.faults[i] = s.faults[i] ∧ t.cands[i] = s.cands[i])
    (hr : CondOk t.routes[r] t.faults[r] t.cands[r]) : ConditionLaw t := by
  rw [conditionLaw_iff] at h ⊢
  intro i
  by_cases hi : i = r
  · exact hi ▸ hr
  · obtain ⟨h1, h2, h3⟩ := hothers i hi
    rw [h1, h2, h3]
    exact h i

theorem getFin_set_ne {α : Type} {n : Nat} (v : Vector α n) {i j : Fin n} (a : α) (h : j ≠ i) : (v.set i a)[j] = v[j] := by
  rw [getFin_set, if_neg (Ne.symm h)]

theorem getFin_set_same {α : Type} {n : Nat} (v : Vector α n) (i : Fin n) (a : α) : (v.set i a)[i] = a := by
  rw [getFin_set, if_pos rfl]

/-- Without a candidate only the condition and the status have to agree. -/
theorem condOk_noCand {e : RouteEntry} {f : FaultRecord} (h : f.cond = .unknown ↔ routeStatus e ≠ .baselined) :
    CondOk e f none :=
  ⟨h, by simp⟩

/-- A fault record of a condition that agrees with the route, its candidate cleared, is as R127 says. -/
theorem ConditionLaw.recorded (h : ConditionLaw s) (r : RouteNo) {f : FaultRecord}
    (hf : f.cond = .unknown ↔ routeStatus s.routes[r] ≠ .baselined) : ConditionLaw (setFault r f (setCand r none s)) := by
  refine h.at r (fun i hi => ⟨rfl, getFin_set_ne _ _ hi, getFin_set_ne _ _ hi⟩) ?_
  rw [setFault_faults, setFault_cands, setCand_cands, getFin_set_same, getFin_set_same]
  exact condOk_noCand hf

/-- The candidate that a differing finding leaves (R131). -/
theorem ConditionLaw.candidate (h : ConditionLaw s) (r : RouteNo) {c : Condition} {b : RouteBody} (hok : RouteOk b)
    (hb : s.routes[r].body = some b) (hx : b.baseline.isSome = true) (hknown : c ≠ .unknown) (hne : c ≠ s.faults[r].cond)
    (hn : agreeAfter c s.cands[r] ≠ b.judging.confirm) :
    ConditionLaw (setCand r (some { cond := c, agree := agreeAfter c s.cands[r] }) s) := by
  refine h.at r (fun i hi => ⟨rfl, rfl, getFin_set_ne _ _ hi⟩) ?_
  rw [setCand_cands, getFin_set_same]
  refine ⟨(h r).1, ?_⟩
  rintro _ ⟨⟩
  have hconfirm : 1 ≤ b.judging.confirm := by
    obtain ⟨-, -, -, -, -, -, -, -, -, -, -, -, -, -, -, -, -, -, -, -, -, h1, -⟩ := hok
    exact h1
  have hagree : 1 ≤ agreeAfter c s.cands[r] ∧ agreeAfter c s.cands[r] ≤ b.judging.confirm := by
    cases hk : s.cands[r] with
    | none => exact ⟨le_refl 1, hconfirm⟩
    | some k =>
      obtain ⟨-, -, -, b', hb', -, hlt⟩ := (h r).2 k hk
      obtain rfl := Option.some.inj (hb'.symm.trans hb)
      unfold agreeAfter
      dsimp only
      split <;> omega
  exact ⟨hknown, hne, hagree.1, b, hb, hx, lt_of_le_of_ne hagree.2 hn⟩

theorem ConditionLaw.finds (f : Finding) (hl : RouteLaw s) (h : ConditionLaw s) (hknown : f.judgement.cond ≠ .unknown) :
    ConditionLaw (takeFinding f s) := by
  rcases takeFinding_cases f s with k | ⟨b, hb, hx, ⟨hc, k⟩ | ⟨-, -, k⟩ | ⟨hne, hn, k⟩⟩ <;> rw [k]
  · exact h
  · exact h.recorded f.route (h f.route).1
  · refine ConditionLaw.of_eq (h.recorded f.route (f := adopted f) ?_) rfl rfl rfl
    refine ⟨fun hu => absurd hu hknown, fun hs => absurd (routeStatus_eq_baselined_iff.mpr ⟨b, hb, hx⟩) hs⟩
  · exact (h.candidate f.route (hl f.route b hb) hb hx hknown hne hn).port (askTest_portOnly _ _ _ _ _)

/-- The finish of a test keeps the conditions as R127 says (R16, R55). -/
theorem ConditionLaw.finishes (out : TestOutcome) (err : Option EquipKind) (held : Option HeldAnalysis)
    (j : Option Judgement) (hl : RouteLaw s) (h : ConditionLaw s) (hj : ∀ x, j = some x → x.cond ≠ .unknown) :
    ConditionLaw (finishEntry out err held j s) := by
  have hboth : RouteLaw (finishEntry out err held j s) ∧ ConditionLaw (finishEntry out err held j s) :=
    finishEntry_keeps (P := fun u => RouteLaw u ∧ ConditionLaw u) out err held j s ⟨hl, h⟩
      (fun u hu => ⟨hu.1.of_eq (returnReservation_portOnly u).routes, hu.2.port (returnReservation_portOnly u)⟩)
      (fun _ _ _ hu => ⟨hu.1.of_eq rfl, hu.2.of_eq rfl rfl rfl⟩)
      (fun _ _ _ hu => ⟨hu.1.of_eq rfl, hu.2.of_eq rfl rfl rfl⟩)
      (fun _ _ _ _ _ hu => ⟨hu.1.of_eq (leaveQueue_queueOnly _ _ _ _ _).routes,
        hu.2.port (leaveQueue_queueOnly _ _ _ _ _).port⟩)
      (fun f _ hf hu => ⟨hu.1.of_eq (takeFinding_finishOnly _ _).routes, ConditionLaw.finds f hu.1 hu.2 (hj _ hf)⟩)
  exact hboth.2

theorem ConditionLaw.concludes (st : EngineState) (out : TestOutcome) (err : Option EquipKind) (held : Option HeldAnalysis)
    (j : Option Judgement) (hl : RouteLaw s) (h : ConditionLaw s) (hj : ∀ x, j = some x → x.cond ≠ .unknown) :
    ConditionLaw (concludeIn st (finishEntry out err held j s)) :=
  (ConditionLaw.finishes out err held j hl h hj).port (concludeIn_portOnly _ _)

theorem ConditionLaw.faults (hl : RouteLaw s) (h : ConditionLaw s) : ConditionLaw (laserFault s) := by
  rcases laserFault_cases s with ⟨-, k⟩ | ⟨-, k⟩ <;> rw [k]
  · exact h.of_eq rfl rfl rfl
  · rcases faultEngine_cases { s with front := { s.front with laser := false } } with ⟨-, k⟩ | ⟨-, k⟩ | ⟨-, k⟩ <;> rw [k]
    · exact ConditionLaw.concludes _ _ _ _ _ (hl.of_eq rfl) (h.of_eq rfl rfl rfl) (by simp)
    · exact h.of_eq rfl rfl rfl
    · exact h.of_eq rfl rfl rfl

theorem ConditionLaw.fires (len : Nat) (hl : RouteLaw s) (h : ConditionLaw s) : ConditionLaw (startFiring len s) := by
  rcases startFiring_cases len s with ⟨-, k⟩ | ⟨-, k⟩ <;> rw [k]
  · exact h.of_eq rfl rfl rfl
  · exact ConditionLaw.faults (hl.of_eq rfl) (h.of_eq rfl rfl rfl)

/-- The reserved blocks become the route's baseline and its condition CLEAR (R127, R133). -/
theorem ConditionLaw.committed (run : Running) (r : Reservation) (x : HeldAnalysis) (h : ConditionLaw s) :
    ConditionLaw (commitCapture run r x s) := by
  rcases commitCapture_cases run r x s with ⟨-, k⟩ | ⟨b, -, k⟩ <;> rw [k]
  · exact h.of_eq rfl rfl rfl
  · have hlaw : ConditionLaw (setFault run.route (capturedRecord (some run.id) x.time r.acq)
        (setCand run.route none (committedState run.route b r x s))) := by
      refine h.at run.route (fun i hi => ⟨getFin_set_ne _ _ hi, getFin_set_ne _ _ hi, getFin_set_ne _ _ hi⟩) ?_
      simp only [setFault_routes, setCand_routes, committedState, setRoute_routes, setFault_faults, setFault_cands,
        setCand_cands, getFin_set_same]
      exact condOk_noCand ⟨fun hu => absurd hu (by simp [capturedRecord]), fun hs => absurd rfl hs⟩
    rcases captureClear_cases run.route run.id r.acq x.time { committedState run.route b r x s with
      store := { s.store with free := giveBack (baselineBlocks s.routes[run.route]) s.store.free, resv := none } }
      with ⟨-, k⟩ | ⟨-, k⟩ <;> rw [k] <;> exact hlaw.of_eq rfl rfl rfl

/-- A route that goes to UNKNOWN with no baseline left, the others standing as they did (R134). -/
theorem ConditionLaw.unknowns (r : RouteNo) (c : Client)
    (hothers : ∀ i : RouteNo, i ≠ r → CondOk s.routes[i] s.faults[i] s.cands[i])
    (hr : routeStatus s.routes[r] ≠ .baselined) : ConditionLaw (setUnknown r c s) := by
  have key : ∀ f : FaultRecord, f.cond = .unknown → ConditionLaw (setFault r f (setCand r none s)) := by
    intro f hf
    rw [conditionLaw_iff]
    intro i
    by_cases hi : i = r
    · subst hi
      rw [setFault_faults, setFault_cands, setCand_cands, getFin_set_same, getFin_set_same]
      exact condOk_noCand ⟨fun _ => hr, fun _ => hf⟩
    · rw [setFault_faults, setFault_cands, setCand_cands, getFin_set_ne _ _ hi, getFin_set_ne _ _ hi]
      exact hothers i hi
  rcases setUnknown_cases r c s with ⟨hu, k⟩ | ⟨-, k⟩ <;> rw [k]
  · refine (key s.faults[r] hu).of_eq rfl ?_ rfl
    simp
  · exact (key _ rfl).of_eq rfl rfl rfl

theorem definedEntry_baseline (e : RouteEntry) (d : RouteDef) :
    (definedEntry e d).body.bind RouteBody.baseline
      = if changesAcq e d then none else e.body.bind RouteBody.baseline := rfl

theorem routeStatus_eq_baselined_iff_bind {e : RouteEntry} :
    routeStatus e = .baselined ↔ (e.body.bind RouteBody.baseline).isSome = true := by
  unfold routeStatus
  cases hb : e.body with
  | none => simp
  | some b => by_cases hx : b.baseline.isSome = true <;> simp [hx]

theorem ConditionLaw.defines (c : Client) (r : RouteNo) (d : RouteDef) (h : ConditionLaw s) :
    ConditionLaw (acceptDefinition c r d s) := by
  rcases acceptDefinition_cases c r d s with ⟨⟨hchange, -⟩, k⟩ | ⟨hkeep, k⟩ <;> rw [k]
  · refine ConditionLaw.unknowns r c (fun i hi => ?_) ?_
    · show CondOk (s.routes.set r (definedEntry s.routes[r] d))[i] _ _
      rw [getFin_set_ne _ _ hi]
      exact h i
    · show routeStatus (s.routes.set r (definedEntry s.routes[r] d))[r] ≠ .baselined
      rw [getFin_set_same, ne_eq, routeStatus_eq_baselined_iff_bind, definedEntry_baseline, if_pos hchange]
      simp
  · refine h.at r (fun i hi => ⟨getFin_set_ne _ _ hi, rfl, getFin_set_ne _ _ hi⟩) ?_
    show CondOk (s.routes.set r (definedEntry s.routes[r] d))[r] s.faults[r] (s.cands.set r none)[r]
    rw [getFin_set_same, getFin_set_same]
    refine condOk_noCand ((h r).1.trans (not_congr ?_))
    rw [routeStatus_eq_baselined_iff_bind, routeStatus_eq_baselined_iff_bind, definedEntry_baseline]
    rw [routeStatus_eq_baselined_iff_bind] at hkeep
    split
    · rename_i hchange
      simp_all
    · exact Iff.rfl

theorem ConditionLaw.deletes (c : Client) (r : RouteNo) (h : ConditionLaw s) : ConditionLaw (acceptDeletion c r s) := by
  rw [acceptDeletion_eq]
  refine ConditionLaw.port ?_ (removeWaiting_queueOnly _ _).port
  refine ConditionLaw.unknowns r c (fun i hi => ?_) ?_
  · show CondOk (s.routes.set r (deletedEntry s.routes[r]))[i] _ _
    rw [getFin_set_ne _ _ hi]
    exact h i
  · show routeStatus (s.routes.set r (deletedEntry s.routes[r]))[r] ≠ .baselined
    rw [getFin_set_same]
    simp [routeStatus, deletedEntry]

theorem ConditionLaw.holds (c : Client) (r : RouteNo) (x : HoldSet) (h : ConditionLaw s) :
    ConditionLaw (changeHolds c r x s) := by
  refine ConditionLaw.port ?_ (changeHolds_portOnly _ _ _ _)
  refine h.at r (fun i hi => ⟨getFin_set_ne _ _ hi, rfl, rfl⟩) ?_
  rw [setRoute_routes, getFin_set_same]
  exact h r

theorem ConditionLaw.work {c : Client} {wf : Prop} {code : Nat} (h : Work c wf code s t) (hl : ConditionLaw s) :
    ConditionLaw t := by
  induction h with
  | nothing => exact hl
  | test r k cl => exact hl.port (askTest_portOnly _ _ _ _ _)
  | testGone r k cl => exact (hl.port (askTest_portOnly (bitOf c) r k cl s)).of_eq rfl rfl rfl
  | cancelKept e => exact hl.port ((setEntries_queueOnly _ _).trans (dropFromMarks_queueOnly _ _ _)).port
  | cancelWaiting e => exact hl.port (leaveQueue_queueOnly _ _ _ _ _).port
  | cancelRunning e =>
    exact hl.port (((stopAcquisition_portOnly _).trans (leaveQueue_queueOnly _ _ _ _ _).port).trans (handOut_portOnly _))
  | define r d => exact hl.defines _ _ _
  | delete r => exact hl.deletes _ _
  | holds r h => exact hl.holds _ _ _
  | window i d w => exact hl.upTo (acceptWindow_portOnly _ _ _) rfl rfl rfl
  | setAndStart set _ ih => exact ih.of_eq rfl rfl rfl
  | stopClock => exact hl.upTo (changeWindows_portOnly _ _ _) rfl rfl rfl
  | thresholdReached set ih => exact ih.of_eq rfl rfl rfl
  | setBarred p d => exact hl.upTo (routeReport_portOnly _ _) rfl rfl rfl
  | leaveFaulted => exact hl.upTo (leaveFaulted_portOnly _) rfl rfl rfl
  | markDone | markOpens | setClock | startClock | setNotices | clearNotices | readLog | setDevice | clearEquipment
  | arm => exact hl.of_eq rfl rfl rfl

theorem repairConditions_faults (s : State) (r : RouteNo) :
    (repairConditions s).faults[r] = repairedFault s.clock.now s.routes[r] s.faults[r] := by
  simp [repairConditions]

/-- The repair of R136 finds nothing to repair where the conditions agree with their routes. -/
theorem repairedFault_of_agreeing (now : Time) {e : RouteEntry} {f : FaultRecord}
    (h : f.cond = .unknown ↔ routeStatus e ≠ .baselined) : repairedFault now e f = f := by
  rw [ne_eq, routeStatus_eq_baselined_iff_bind] at h
  unfold repairedFault
  cases hb : e.body.bind RouteBody.baseline with
  | none => simp_all
  | some b => simp_all

theorem ConditionLaw.endsReset (k : ResetKind) (h : ConditionLaw s) : ConditionLaw (endReset k s) := by
  have hin : ConditionLaw (inService k s) := by
    rw [conditionLaw_iff]
    intro r
    show CondOk s.routes[r] (repairConditions { s with shelf := none }).faults[r] s.cands[r]
    rw [repairConditions_faults, repairedFault_of_agreeing _ (h r).1]
    exact h r
  rw [endReset_eq]
  split
  · exact hin
  · exact hin.port (homeSwitch_portOnly _)

/-- Without candidates the law needs only that conditions and routes agree. -/
theorem ConditionLaw.noCands (h : ConditionLaw s) (hr : t.routes = s.routes) (hf : t.faults = s.faults)
    (hc : t.cands = Vector.replicate 48 none) : ConditionLaw t := by
  rw [conditionLaw_iff]
  intro r
  rw [hr, hf, hc]
  have hnone : (Vector.replicate 48 (none : Option Candidate))[r] = none := by simp
  rw [hnone]
  exact condOk_noCand (h r).1

theorem ConditionLaw.effect {wf : Prop} (h : Effect wf s t) (hl : RouteLaw s) (hc : ConditionLaw s) : ConditionLaw t := by
  induction h with
  | nothing s => exact hc
  | framed c line after ih => exact ih (hl.of_eq rfl) (hc.of_eq rfl rfl rfl)
  | busy c tag =>
    unfold refuseBusy
    dsimp only
    split <;> exact hc.of_eq rfl rfl rfl
  | served c tag r ready may fits => exact (ConditionLaw.work (ownerOf_work r _ may fits) hc).of_eq rfl rfl rfl
  | craftReset line => exact (hc.noCands (beginReset_routes _) (beginReset_faults _) rfl).endsReset _
  | shelfReset line => exact hc.noCands (beginReset_routes _) (beginReset_faults _) rfl
  | release k line => exact hc.endsReset k
  | powerOnHeld line => exact hc.noCands (powerLoss_routes _) (powerLoss_faults _) rfl
  | powerOn line => exact (hc.noCands (powerLoss_routes _) (powerLoss_faults _) rfl).endsReset _
  | homed state timer => exact hc.upTo (concludeIn_portOnly _ _) rfl rfl rfl
  | stuck state => exact (ConditionLaw.finishes _ _ _ _ hl hc (by simp)).port (homeSwitch_portOnly _)
  | liveLight run rec | acqTimeout state | storeError r w data =>
    exact ConditionLaw.concludes _ _ _ _ _ (hl.of_eq rfl) (hc.of_eq rfl rfl rfl) (by simp)
  | analysed run f cells out j state running trace judged =>
    exact ConditionLaw.concludes _ _ _ _ _ (hl.of_eq rfl) (hc.of_eq rfl rfl rfl) judged
  | fires run rec => exact ConditionLaw.fires _ (hl.of_eq rfl) (hc.of_eq rfl rfl rfl)
  | captured r w data run h =>
    exact ConditionLaw.concludes _ _ _ _ _ (RouteLaw.committed (s := writeDone _ _ _) (hl.of_eq rfl) run r h)
      (ConditionLaw.committed (s := writeDone _ _ _) run r h (hc.of_eq rfl rfl rfl)) (by simp)
  | cutOffGood r w data | cutOffFailed r w data =>
    exact hc.upTo (cutOffEnds_portOnly _) rfl rfl rfl
  | laserFault s => exact ConditionLaw.faults (hl.of_eq rfl) (hc.of_eq rfl rfl rfl)
  | tick s =>
    rcases tickClock_cases s with ⟨-, h⟩ | ⟨-, -, h⟩ | ⟨-, -, -, h⟩ | ⟨-, -, -, h⟩ <;> rw [h]
    · exact hc
    · exact hc.of_eq rfl rfl rfl
    · exact hc.of_eq rfl rfl rfl
    · exact hc.upTo (changeWindows_portOnly _ _ _) rfl rfl rfl
  | assembly | sent | turnedAway | arrived | settled | homeFailed | shot | lastShot | commits | nextWrite | faultEnds
  | pulseEnds => exact hc.of_eq rfl rfl rfl

end

/-- Settles O8: the Route Table by its three writers, the conditions by the tracker's operations under the Route Table's
ranges. -/
theorem everyStepKeepsRouteAndConditionLaw : Obligations.EveryStepKeepsRouteAndConditionLaw := by
  intro s t hroute hstep
  refine ⟨step_keeps (P := RouteLaw) (fun _ _ h => h.of_eq rfl) (fun h => RouteLaw.effect h) hroute hstep, fun hcond => ?_⟩
  have hboth : RouteLaw t ∧ ConditionLaw t :=
    step_keeps (P := fun u => RouteLaw u ∧ ConditionLaw u) (fun _ _ h => ⟨h.1.of_eq rfl, h.2.of_eq rfl rfl rfl⟩)
      (fun k h => ⟨RouteLaw.effect k h.1, ConditionLaw.effect k h.1 h.2⟩) ⟨hroute, hcond⟩ hstep
  exact hboth.2

end Sys2Proof.Machine
end

section
/-!
The entries of the Test Queue: what a change of an entry, a new entry, a removal and a merge keep of R101, R102 and R104; the
first free id.
-/
namespace Sys2Proof.Machine

/-! ### The first free id (R104) -/

/-- The `j`-th value from `n` on, 65535 being followed by 1. -/
def idFrom (n j : Nat) : Nat := (n - 1 + j) % 65535 + 1

theorem idFrom_zero {n : Nat} (h1 : 1 ≤ n) (hmax : n ≤ 65535) : idFrom n 0 = n := by
  unfold idFrom
  omega

theorem idFrom_bounds (n j : Nat) : 1 ≤ idFrom n j ∧ idFrom n j ≤ 65535 := by
  unfold idFrom
  omega

theorem nextId_bounds {n : Nat} (h1 : 1 ≤ n) : 1 ≤ nextId n ∧ nextId n ≤ 65535 := by
  unfold nextId
  split <;> omega

theorem idFrom_nextId {n : Nat} (h1 : 1 ≤ n) (hmax : n ≤ 65535) (j : Nat) : idFrom (nextId n) j = idFrom n (j + 1) := by
  unfold idFrom nextId
  split <;> omega

theorem idFrom_injective {n i j : Nat} (hi : i < 65535) (hj : j < 65535) (h : idFrom n i = idFrom n j) : i = j := by
  unfold idFrom at h
  omega

/-- The search stops at the first free value, or has tried `k` values that are all taken. -/
theorem freshId_search (es : List Entry) (k : Nat) {n : Nat} (h1 : 1 ≤ n) (hmax : n ≤ 65535) :
    ∃ j ≤ k, freshId es k n = idFrom n j ∧ (∀ i < j, ∃ e ∈ es, e.id = idFrom n i)
      ∧ (j < k → ∀ e ∈ es, e.id ≠ idFrom n j) := by
  induction k generalizing n with
  | zero => exact ⟨0, le_rfl, (idFrom_zero h1 hmax).symm, by simp, by simp⟩
  | succ k ih =>
    by_cases htaken : es.any (fun e => e.id == n) = true
    · obtain ⟨e, hmem, hid⟩ := List.any_eq_true.mp htaken
      have hid : e.id = n := eq_of_beq hid
      obtain ⟨hn1, hn2⟩ := nextId_bounds h1
      obtain ⟨j, hj, hfound, hbefore, hfree⟩ := ih hn1 hn2
      refine ⟨j + 1, by omega, ?_, fun i hi => ?_, fun hlt => ?_⟩
      · rw [freshId, if_pos htaken, hfound, idFrom_nextId h1 hmax]
      · cases i with
        | zero => exact ⟨e, hmem, by rw [idFrom_zero h1 hmax, hid]⟩
        | succ i =>
          rw [← idFrom_nextId h1 hmax]
          exact hbefore i (by omega)
      · rw [← idFrom_nextId h1 hmax]
        exact hfree (by omega)
    · refine ⟨0, by omega, ?_, by simp, fun _ e hmem hid => htaken ?_⟩
      · rw [freshId, if_neg htaken, idFrom_zero h1 hmax]
      · rw [idFrom_zero h1 hmax] at hid
        exact List.any_eq_true.mpr ⟨e, hmem, beq_iff_eq.mpr hid⟩

/-- At most as many values are taken as there are entries. -/
theorem taken_le_length {es : List Entry} {n k : Nat} (hk : k < 65535) (h : ∀ i < k, ∃ e ∈ es, e.id = idFrom n i) :
    k ≤ es.length := by
  have hnodup : ((List.range k).map (idFrom n)).Nodup := by
    refine List.Nodup.map_on (fun i hi j hj hij => ?_) List.nodup_range
    rw [List.mem_range] at hi hj
    exact idFrom_injective (by omega) (by omega) hij
  have hsub : (List.range k).map (idFrom n) ⊆ es.map Entry.id := by
    intro x hx
    obtain ⟨i, hi, rfl⟩ := List.mem_map.mp hx
    obtain ⟨e, hmem, hid⟩ := h i (List.mem_range.mp hi)
    exact List.mem_map.mpr ⟨e, hmem, hid⟩
  simpa using (List.subperm_of_subset hnodup hsub).length_le

/-- With at most 32 entries the search of a new entry's id finds the first free one (R104). -/
theorem freshId_firstFree {es : List Entry} {n : Nat} (hlen : es.length ≤ 32) (h1 : 1 ≤ n) (hmax : n ≤ 65535) :
    FirstFree es n (freshId es 33 n) := by
  obtain ⟨j, hj, hfound, hbefore, hfree⟩ := freshId_search es 33 h1 hmax
  have hle := taken_le_length (by omega) hbefore
  rw [hfound]
  exact ⟨j, rfl, hfree (by omega), hbefore⟩

/-- There is one first free id. -/
theorem FirstFree.unique {es : List Entry} {n a b : Nat} (ha : FirstFree es n a) (hb : FirstFree es n b) : a = b := by
  obtain ⟨i, rfl, hfreeA, hbeforeA⟩ := ha
  obtain ⟨j, rfl, hfreeB, hbeforeB⟩ := hb
  rcases Nat.lt_trichotomy i j with h | rfl | h
  · obtain ⟨e, hmem, hid⟩ := hbeforeB i h
    exact absurd hid (hfreeA e hmem)
  · rfl
  · obtain ⟨e, hmem, hid⟩ := hbeforeA j h
    exact absurd hid (hfreeB e hmem)

theorem FirstFree.bounds {es : List Entry} {n id : Nat} (h : FirstFree es n id) : 1 ≤ id ∧ id ≤ 65535 := by
  obtain ⟨k, rfl, -⟩ := h
  exact idFrom_bounds n k

theorem FirstFree.not_mem {es : List Entry} {n id : Nat} (h : FirstFree es n id) : ∀ e ∈ es, e.id ≠ id := by
  obtain ⟨k, -, hfree, -⟩ := h
  exact hfree

/-! ### The order of the entries (R101, R102, R104) -/

/-- What the queue keeps of its entries but that no two of them are WAITING twins. -/
structure EntriesOk (es : List Entry) : Prop where
  len : es.length ≤ 32
  ids : (es.map Entry.id).Nodup
  each : ∀ e ∈ es, 1 ≤ e.id ∧ e.id ≤ 65535 ∧ e.reqs ≠ 0
  classes : es.Pairwise fun a b => a.cls = .routine → b.cls = .routine

/-- Two entries are WAITING tests of one route and kind. -/
def Twins (a b : Entry) : Prop := isWaiting a = true ∧ isWaiting b = true ∧ a.route = b.route ∧ a.kind = b.kind

theorem Twins.symm {a b : Entry} (h : Twins a b) : Twins b a := ⟨h.2.1, h.1, h.2.2.1.symm, h.2.2.2.symm⟩

/-- No two entries of the list are twins. -/
def NoTwins (es : List Entry) : Prop := ∀ a ∈ es, ∀ b ∈ es, Twins a b → a.id = b.id

theorem EntriesOk.eq_of_id {es : List Entry} (h : EntriesOk es) {a b : Entry} (ha : a ∈ es) (hb : b ∈ es)
    (hid : a.id = b.id) : a = b :=
  List.inj_on_of_nodup_map h.ids ha hb hid

theorem noTwins_iff_pairwise {es : List Entry} (h : EntriesOk es) :
    NoTwins es ↔ es.Pairwise fun a b => isWaiting a = true → isWaiting b = true → ¬(a.route = b.route ∧ a.kind = b.kind) := by
  have hnodup : es.Nodup := h.ids.of_map _
  constructor
  · intro hno
    refine hnodup.pairwise_of_forall_ne fun a ha b hb hne hwa hwb heq => hne ?_
    exact h.eq_of_id ha hb (hno a ha b hb ⟨hwa, hwb, heq.1, heq.2⟩)
  · intro hp a ha b hb ⟨hwa, hwb, hr, hk⟩
    by_contra hne
    have hsymm : Std.Symm fun a b : Entry => isWaiting a = true → isWaiting b = true → ¬(a.route = b.route ∧ a.kind = b.kind) :=
      ⟨fun x y hxy hy hx heq => hxy hx hy ⟨heq.1.symm, heq.2.symm⟩⟩
    exact hp.forall ha hb (fun hab => hne (congrArg Entry.id hab)) hwa hwb ⟨hr, hk⟩

theorem queueLaw_iff {s : State} :
    QueueLaw s ↔ EntriesOk s.queue.entries ∧ NoTwins s.queue.entries ∧ 1 ≤ s.queue.counter ∧ s.queue.counter ≤ 65535 := by
  constructor
  · rintro ⟨hlen, hids, heach, hcls, htwins, hcounter⟩
    have hok : EntriesOk s.queue.entries := ⟨hlen, hids, heach, hcls⟩
    exact ⟨hok, (noTwins_iff_pairwise hok).mpr htwins, hcounter⟩
  · rintro ⟨hok, htwins, hcounter⟩
    exact ⟨hok.len, hok.ids, hok.each, hok.classes, (noTwins_iff_pairwise hok).mp htwins, hcounter⟩

/-! ### Removals -/

theorem EntriesOk.sublist {es fs : List Entry} (h : EntriesOk es) (hsub : fs.Sublist es) : EntriesOk fs where
  len := hsub.length_le.trans h.len
  ids := h.ids.sublist (hsub.map _)
  each e he := h.each e (hsub.subset he)
  classes := h.classes.sublist hsub

theorem NoTwins.subset {es fs : List Entry} (h : NoTwins es) (hsub : fs ⊆ es) : NoTwins fs :=
  fun a ha b hb => h a (hsub ha) b (hsub hb)

/-! ### Changes of an entry in its place -/

/-- `f` changes neither place nor label of the entries of `es`, and leaves none of them without a requester. -/
structure KeepsPlaces (f : Entry → Entry) (es : List Entry) : Prop where
  id : ∀ e ∈ es, (f e).id = e.id
  route : ∀ e ∈ es, (f e).route = e.route
  kind : ∀ e ∈ es, (f e).kind = e.kind
  cls : ∀ e ∈ es, (f e).cls = e.cls
  reqs : ∀ e ∈ es, e.reqs ≠ 0 → (f e).reqs ≠ 0

theorem EntriesOk.map {es : List Entry} (h : EntriesOk es) {f : Entry → Entry} (hf : KeepsPlaces f es) :
    EntriesOk (es.map f) where
  len := by simpa using h.len
  ids := by
    have hids : (es.map f).map Entry.id = es.map Entry.id := by
      rw [List.map_map]
      exact List.map_congr_left hf.id
    rw [hids]
    exact h.ids
  each e he := by
    obtain ⟨x, hx, rfl⟩ := List.mem_map.mp he
    obtain ⟨h1, h2, h3⟩ := h.each x hx
    rw [hf.id x hx]
    exact ⟨h1, h2, hf.reqs x hx h3⟩
  classes := by
    rw [List.pairwise_map]
    refine List.Pairwise.imp_of_mem (fun {a b} ha hb hab => ?_) h.classes
    rw [hf.cls a ha, hf.cls b hb]
    exact hab

theorem NoTwins.map {es : List Entry} (h : NoTwins es) {f : Entry → Entry} (hf : KeepsPlaces f es)
    (hwaits : ∀ e ∈ es, isWaiting (f e) = true → isWaiting e = true) : NoTwins (es.map f) := by
  intro a ha b hb ⟨hwa, hwb, hr, hk⟩
  obtain ⟨x, hx, rfl⟩ := List.mem_map.mp ha
  obtain ⟨y, hy, rfl⟩ := List.mem_map.mp hb
  rw [hf.route x hx, hf.route y hy] at hr
  rw [hf.kind x hx, hf.kind y hy] at hk
  rw [hf.id x hx, hf.id y hy]
  exact h x hx y hy ⟨hwaits x hx hwa, hwaits y hy hwb, hr, hk⟩

theorem keepsPlaces_running (id : Nat) (acq : Option Nat) (es : List Entry) :
    KeepsPlaces (fun x => if x.id = id then { x with running := acq } else x) es where
  id e _ := by split <;> rfl
  route e _ := by split <;> rfl
  kind e _ := by split <;> rfl
  cls e _ := by split <;> rfl
  reqs e _ h := by split <;> exact h

theorem keepsPlaces_reqs (id : Nat) {reqs : RequesterSet} (hreqs : reqs ≠ 0) (es : List Entry) :
    KeepsPlaces (fun x => if x.id = id then { x with reqs := reqs } else x) es where
  id e _ := by split <;> rfl
  route e _ := by split <;> rfl
  kind e _ := by split <;> rfl
  cls e _ := by split <;> rfl
  reqs e _ h := by
    split
    · exact hreqs
    · exact h

theorem replaced_eq {es : List Entry} (h : EntriesOk es) {e : Entry} (he : e ∈ es) (f : Entry → Entry) :
    (es.map fun x => if x.id = e.id then f e else x) = es.map fun x => if x.id = e.id then f x else x := by
  refine List.map_congr_left fun x hx => ?_
  by_cases hid : x.id = e.id
  · rw [if_pos hid, if_pos hid, h.eq_of_id hx he hid]
  · rw [if_neg hid, if_neg hid]

/-! ### A new place -/

theorem placeEntry_perm (e : Entry) (es : List Entry) : (placeEntry e es).Perm (e :: es) := by
  unfold placeEntry
  split
  · refine List.perm_middle.trans (List.Perm.cons e ?_)
    rw [List.takeWhile_append_dropWhile]
  · exact List.perm_append_comm

theorem mem_placeEntry {e x : Entry} {es : List Entry} : x ∈ placeEntry e es ↔ x = e ∨ x ∈ es := by
  rw [(placeEntry_perm e es).mem_iff, List.mem_cons]

theorem placeEntry_classes {e : Entry} {es : List Entry}
    (h : es.Pairwise fun a b => a.cls = .routine → b.cls = .routine) :
    (placeEntry e es).Pairwise fun a b => a.cls = .routine → b.cls = .routine := by
  unfold placeEntry
  split
  · rename_i hcls
    have hurgent : ∀ a ∈ es.takeWhile (fun x => x.cls == .urgent), a.cls ≠ .routine := fun a ha hr => by
      have hu := List.mem_takeWhile_imp ha
      rw [hr] at hu
      exact absurd hu (by decide)
    refine List.pairwise_append.mpr ⟨h.sublist (List.takeWhile_sublist _), List.pairwise_cons.mpr ⟨?_, ?_⟩, ?_⟩
    · intro b _ hr
      rw [hcls] at hr
      cases hr
    · exact h.sublist (List.dropWhile_sublist _)
    · exact fun a ha b _ hr => absurd hr (hurgent a ha)
  · rename_i hcls
    refine List.pairwise_append.mpr ⟨h, List.pairwise_singleton _ _, fun a _ b hb _ => ?_⟩
    rw [List.mem_singleton.mp hb]
    exact hcls

theorem EntriesOk.place {es : List Entry} (h : EntriesOk es) {e : Entry} (hlen : es.length < 32)
    (hid : ∀ x ∈ es, x.id ≠ e.id) (h1 : 1 ≤ e.id) (hmax : e.id ≤ 65535) (hreqs : e.reqs ≠ 0) :
    EntriesOk (placeEntry e es) where
  len := by
    rw [(placeEntry_perm e es).length_eq, List.length_cons]
    omega
  ids := by
    rw [((placeEntry_perm e es).map _).nodup_iff, List.map_cons, List.nodup_cons]
    refine ⟨fun hm => ?_, h.ids⟩
    obtain ⟨x, hx, hxid⟩ := List.mem_map.mp hm
    exact hid x hx hxid
  each x hx := by
    rcases mem_placeEntry.mp hx with rfl | hx
    · exact ⟨h1, hmax, hreqs⟩
    · exact h.each x hx
  classes := placeEntry_classes h.classes

theorem NoTwins.place {es : List Entry} (h : NoTwins es) {e : Entry} (he : ∀ x ∈ es, ¬Twins x e) :
    NoTwins (placeEntry e es) := by
  intro a ha b hb htwins
  rcases mem_placeEntry.mp ha with hae | ha <;> rcases mem_placeEntry.mp hb with hbe | hb
  · rw [hae, hbe]
  · exact absurd (hae ▸ htwins).symm (he b hb)
  · exact absurd (hbe ▸ htwins) (he a ha)
  · exact h a ha b hb htwins

/-! ### A merge (R112, R113) -/

/-- The entry that has absorbed `b`. -/
def absorbing (a b : Entry) : Entry :=
  { a with reqs := a.reqs ||| b.reqs, cls := if b.cls = .urgent then .urgent else a.cls }

theorem or_ne_zero_left {a b : RequesterSet} (h : a ≠ 0) : a ||| b ≠ 0 :=
  fun hor => h (BitVec.or_eq_zero_iff.mp hor).1

/-- Of a list with at most one element, any two are the same. -/
theorem eq_of_length_le_one {α : Type} {l : List α} (h : l.length ≤ 1) {x y : α} (hx : x ∈ l) (hy : y ∈ l) : x = y := by
  match l, h with
  | [], _ => simp at hx
  | [a], _ => rw [List.mem_singleton.mp hx, List.mem_singleton.mp hy]

theorem mergeTwins_cases (r : RouteNo) (k : TestKind) (s : State) :
    ((s.queue.entries.filter fun e => isWaiting e && decide (e.route = r) && decide (e.kind = k)).length ≤ 1
        ∧ mergeTwins r k s = s)
      ∨ ∃ a b rest, s.queue.entries.filter (fun e => isWaiting e && decide (e.route = r) && decide (e.kind = k))
            = a :: b :: rest ∧ mergeTwins r k s = absorb a b s := by
  unfold mergeTwins
  split
  · rename_i a b rest h
    exact .inr ⟨a, b, rest, h, rfl⟩
  · rename_i h
    refine .inl ⟨?_, rfl⟩
    match hf : s.queue.entries.filter fun e => isWaiting e && decide (e.route = r) && decide (e.kind = k) with
    | [] => exact Nat.zero_le 1
    | [x] => exact le_rfl
    | a :: b :: rest => exact absurd hf (h a b rest)

/-- The first two entries of a filtered list: both stand in the list, the first before the second. -/
theorem filter_head_two {es : List Entry} (h : EntriesOk es) {p : Entry → Bool} {a b : Entry} {rest : List Entry}
    (hf : es.filter p = a :: b :: rest) :
    a ∈ es ∧ b ∈ es ∧ p a = true ∧ p b = true ∧ a.id ≠ b.id ∧ (a.cls = .routine → b.cls = .routine) := by
  have hsub : [a, b].Sublist es :=
    (List.Sublist.trans (by simp) (List.Sublist.refl (a :: b :: rest))).trans (hf ▸ List.filter_sublist)
  have ha : a ∈ es.filter p := by rw [hf]; simp
  have hb : b ∈ es.filter p := by rw [hf]; simp
  have hids := h.ids.sublist (hsub.map Entry.id)
  have hcls := h.classes.sublist hsub
  simp only [List.map_cons, List.map_nil, List.nodup_cons, List.mem_cons, List.not_mem_nil, or_false] at hids
  exact ⟨(List.mem_filter.mp ha).1, (List.mem_filter.mp hb).1, (List.mem_filter.mp ha).2, (List.mem_filter.mp hb).2,
    hids.1, (List.pairwise_cons.mp hcls).1 b (by simp)⟩

/-- The entries after `a` has absorbed `b`. -/
def absorbedEntries (a b : Entry) (es : List Entry) : List Entry :=
  (es.map fun x => if x.id = a.id then absorbing a b else x).filter fun x => x.id != b.id

theorem keepsPlaces_absorbing {es : List Entry} (h : EntriesOk es) {a b : Entry} (ha : a ∈ es)
    (hcls : a.cls = .routine → b.cls = .routine) :
    KeepsPlaces (fun x => if x.id = a.id then absorbing a b else x) es := by
  have hsame : ∀ e ∈ es, e.id = a.id → e = a := fun e he hid => h.eq_of_id he ha hid
  have hkept : (absorbing a b).cls = a.cls := by
    unfold absorbing
    dsimp only
    split
    · rename_i hb
      cases hac : a.cls with
      | urgent => rfl
      | routine => rw [hcls hac] at hb; cases hb
    · rfl
  refine ⟨fun e he => ?_, fun e he => ?_, fun e he => ?_, fun e he => ?_, fun e he hreqs => ?_⟩ <;>
    by_cases hid : e.id = a.id
  · rw [if_pos hid, hid]; rfl
  · rw [if_neg hid]
  · rw [if_pos hid, hsame e he hid]; rfl
  · rw [if_neg hid]
  · rw [if_pos hid, hsame e he hid]; rfl
  · rw [if_neg hid]
  · rw [if_pos hid, hsame e he hid, hkept]
  · rw [if_neg hid]
  · rw [if_pos hid]
    exact or_ne_zero_left (hsame e he hid ▸ hreqs)
  · rw [if_neg hid]
    exact hreqs

end Sys2Proof.Machine
end

section
/-!
The laws of the Test Queue and of its marks: every small change of the queue keeps them, and so every step does.
-/
namespace Sys2Proof.Machine

/-! ### A running entry that waits again (R112, R113) -/

/-- The entries with that of `id` WAITING again. -/
def waitingEntries (id : Nat) (es : List Entry) : List Entry :=
  es.map fun x => if x.id = id then { x with running := none } else x

theorem mem_waitingEntries {id : Nat} {es : List Entry} {x : Entry} (hx : x ∈ waitingEntries id es) :
    ∃ y ∈ es, x.id = y.id ∧ x.route = y.route ∧ x.kind = y.kind ∧ x.reqs = y.reqs
      ∧ (y.id ≠ id → isWaiting x = true → isWaiting y = true) := by
  obtain ⟨y, hy, rfl⟩ := List.mem_map.mp hx
  refine ⟨y, hy, ?_⟩
  by_cases hid : y.id = id
  · rw [if_pos hid]
    exact ⟨rfl, rfl, rfl, rfl, fun hne => absurd hid hne⟩
  · rw [if_neg hid]
    exact ⟨rfl, rfl, rfl, rfl, fun _ hw => hw⟩

/-- `y` is, but for its id, the entry that the WAITING `e` would have to merge with. -/
def TwinOf (e : Entry) (es : List Entry) (id : Nat) : Prop :=
  ∃ y ∈ es, isWaiting y = true ∧ y.id = id ∧ y.route = e.route ∧ y.kind = e.kind

theorem TwinOf.unique {e : Entry} {es : List Entry} (h : NoTwins es) {i j : Nat} (hi : TwinOf e es i) (hj : TwinOf e es j) :
    i = j := by
  obtain ⟨x, hx, hwx, rfl, hrx, hkx⟩ := hi
  obtain ⟨y, hy, hwy, rfl, hry, hky⟩ := hj
  exact h x hx y hy ⟨hwx, hwy, hrx.trans hry.symm, hkx.trans hky.symm⟩

/-- Where an entry waits again, it is one of any two twins that there now are. -/
theorem twins_of_waitingEntries {es : List Entry} (hok : EntriesOk es) (hno : NoTwins es) {e : Entry} (he : e ∈ es)
    {x y : Entry} (hx : x ∈ waitingEntries e.id es) (hy : y ∈ waitingEntries e.id es) (h : Twins x y) (hne : x.id ≠ y.id) :
    x.route = e.route ∧ x.kind = e.kind ∧ (x.id = e.id ∧ TwinOf e es y.id ∨ y.id = e.id ∧ TwinOf e es x.id) := by
  obtain ⟨hwx, hwy, hr, hk⟩ := h
  obtain ⟨x0, hx0, hxid, hxr, hxk, -, hxw⟩ := mem_waitingEntries hx
  obtain ⟨y0, hy0, hyid, hyr, hyk, -, hyw⟩ := mem_waitingEntries hy
  by_cases hxe : x0.id = e.id
  · have hx0e : x0 = e := hok.eq_of_id hx0 he hxe
    subst hx0e
    have hye : y0.id ≠ x0.id := fun h' => hne (by omega)
    exact ⟨hxr, hxk, .inl ⟨hxid, y0, hy0, hyw hye hwy, hyid.symm, by rw [← hyr, ← hr, hxr], by rw [← hyk, ← hk, hxk]⟩⟩
  · by_cases hye : y0.id = e.id
    · have hy0e : y0 = e := hok.eq_of_id hy0 he hye
      subst hy0e
      exact ⟨by rw [hr, hyr], by rw [hk, hyk],
        .inr ⟨hyid, x0, hx0, hxw hxe hwx, hxid.symm, by rw [← hxr, hr, hyr], by rw [← hxk, hk, hyk]⟩⟩
    · have := hno x0 hx0 y0 hy0 ⟨hxw hxe hwx, hyw hye hwy, by rw [← hxr, hr, hyr], by rw [← hxk, hk, hyk]⟩
      exact absurd this (by omega)

/-- The WAITING entries of a route and kind, as the merge looks for them. -/
def waitsFor (r : RouteNo) (k : TestKind) (e : Entry) : Bool := isWaiting e && decide (e.route = r) && decide (e.kind = k)

theorem waitsFor_iff {r : RouteNo} {k : TestKind} {e : Entry} :
    waitsFor r k e = true ↔ isWaiting e = true ∧ e.route = r ∧ e.kind = k := by
  simp [waitsFor, and_assoc]

theorem noTwins_of_one {es : List Entry} (hok : EntriesOk es) (hno : NoTwins es) {e : Entry} (he : e ∈ es)
    (hone : ((waitingEntries e.id es).filter (waitsFor e.route e.kind)).length ≤ 1) : NoTwins (waitingEntries e.id es) := by
  intro x hx y hy h
  by_contra hne
  obtain ⟨hr, hk, -⟩ := twins_of_waitingEntries hok hno he hx hy h hne
  obtain ⟨hwx, hwy, hxy, hkxy⟩ := h
  refine hne (congrArg Entry.id (eq_of_length_le_one hone ?_ ?_))
  · exact List.mem_filter.mpr ⟨hx, waitsFor_iff.mpr ⟨hwx, hr, hk⟩⟩
  · exact List.mem_filter.mpr ⟨hy, waitsFor_iff.mpr ⟨hwy, by rw [← hxy, hr], by rw [← hkxy, hk]⟩⟩

theorem mem_absorbedEntries {a b x : Entry} {es : List Entry} (hx : x ∈ absorbedEntries a b es) :
    x.id ≠ b.id ∧ ∃ y ∈ es, x = if y.id = a.id then absorbing a b else y := by
  obtain ⟨hm, hne⟩ := List.mem_filter.mp hx
  obtain ⟨y, hy, rfl⟩ := List.mem_map.mp hm
  exact ⟨by simpa using hne, y, hy, rfl⟩

/-- The merge leaves no twins: of the waiting entry and its one twin, one is gone. -/
theorem noTwins_absorbed {es : List Entry} (hok : EntriesOk es) (hno : NoTwins es) {e a b : Entry} (he : e ∈ es)
    (ha : a ∈ waitingEntries e.id es) (hb : b ∈ waitingEntries e.id es) (hab : Twins a b) (hne : a.id ≠ b.id)
    (hplaces : KeepsPlaces (fun x => if x.id = a.id then absorbing a b else x) (waitingEntries e.id es)) :
    NoTwins (absorbedEntries a b (waitingEntries e.id es)) := by
  intro x hx y hy ⟨hwx, hwy, hr, hk⟩
  by_contra hxy
  obtain ⟨hxb, x1, hx1, rfl⟩ := mem_absorbedEntries hx
  obtain ⟨hyb, y1, hy1, rfl⟩ := mem_absorbedEntries hy
  have hwaits : ∀ z ∈ waitingEntries e.id es, isWaiting (if z.id = a.id then absorbing a b else z) = true →
      isWaiting z = true := by
    intro z hz hw
    by_cases hid : z.id = a.id
    · have hza : z = a := (hok.map (keepsPlaces_running e.id none es)).eq_of_id hz ha hid
      exact hza ▸ hab.1
    · rwa [if_neg hid] at hw
  rw [hplaces.id x1 hx1] at hxb hxy
  rw [hplaces.id y1 hy1] at hyb hxy
  rw [hplaces.route x1 hx1, hplaces.route y1 hy1] at hr
  rw [hplaces.kind x1 hx1, hplaces.kind y1 hy1] at hk
  obtain ⟨-, -, hcol⟩ := twins_of_waitingEntries hok hno he hx1 hy1
    ⟨hwaits x1 hx1 hwx, hwaits y1 hy1 hwy, hr, hk⟩ hxy
  obtain ⟨-, -, habcol⟩ := twins_of_waitingEntries hok hno he ha hb hab hne
  rcases hcol with ⟨hxe, hty⟩ | ⟨hye, htx⟩ <;> rcases habcol with ⟨hae, htb⟩ | ⟨hbe, hta⟩
  · exact hyb (hty.unique hno htb)
  · exact hxb (hxe.trans hbe.symm)
  · exact hxb (htx.unique hno htb)
  · exact hyb (hye.trans hbe.symm)

/-! ### The entries that the marks wait for (R122, R123) -/

/-- The client requests an entry of that id. -/
def Requests (c : Client) (es : List Entry) (id : Nat) : Prop := ∃ e ∈ es, e.id = id ∧ has e.reqs (bitOf c) = true

/-- A wait set of the client `c`: some ids, all different, of entries that the client requests. -/
def WaitOk (c : Client) (es : List Entry) (wait : List Nat) : Prop :=
  wait ≠ [] ∧ wait.Nodup ∧ ∀ i ∈ wait, Requests c es i

/-- The marks of the client `c`. -/
def MarksOk (c : Client) (es : List Entry) (ms : List Mark) : Prop :=
  ms.Pairwise (fun a b => a.number < b.number) ∧ ∀ m ∈ ms, m.number < 4 ∧ WaitOk c es m.wait

theorem MarksOk.mono {c : Client} {es fs : List Entry} {ms : List Mark} (h : MarksOk c es ms)
    (hreq : ∀ i, Requests c es i → Requests c fs i) : MarksOk c fs ms := by
  obtain ⟨hsorted, hms⟩ := h
  refine ⟨hsorted, fun m hm => ?_⟩
  obtain ⟨hnumber, hne, hnodup, hall⟩ := hms m hm
  exact ⟨hnumber, hne, hnodup, fun i hi => hreq i (hall i hi)⟩

/-- The marks whose wait sets change by `f` stay in order. -/
theorem MarksOk.rewait {c : Client} {es fs : List Entry} {ms : List Mark} (h : MarksOk c es ms) {f : List Nat → List Nat}
    (hf : ∀ m ∈ ms, WaitOk c es m.wait → WaitOk c fs (f m.wait)) :
    MarksOk c fs (ms.map fun m => { m with wait := f m.wait }) := by
  obtain ⟨hsorted, hms⟩ := h
  refine ⟨List.pairwise_map.mpr hsorted, fun m hm => ?_⟩
  obtain ⟨x, hx, rfl⟩ := List.mem_map.mp hm
  obtain ⟨hnumber, hwait⟩ := hms x hx
  exact ⟨hnumber, hf x hx hwait⟩

/-- The loss of an id leaves the marks that still wait for another one (R123). -/
theorem MarksOk.kept {c : Client} {es fs : List Entry} {ms : List Mark} {id : Nat} (h : MarksOk c es ms)
    (hreq : ∀ i ≠ id, Requests c es i → Requests c fs i) : MarksOk c fs (keptMarks id ms) := by
  obtain ⟨hsorted, hms⟩ := h
  refine ⟨?_, fun m hm => ?_⟩
  · have hmap : (ms.map fun m : Mark => { m with wait := m.wait.filter (· != id) }).Pairwise
        fun a b => a.number < b.number := List.pairwise_map.mpr hsorted
    exact hmap.sublist List.filter_sublist
  · obtain ⟨x, hx, rfl, hne⟩ := mem_keptMarks hm
    obtain ⟨hnumber, -, hnodup, hall⟩ := hms x hx
    refine ⟨hnumber, hne, hnodup.filter _, fun i hi => ?_⟩
    obtain ⟨hi, hid⟩ := List.mem_filter.mp hi
    exact hreq i (by simpa using hid) (hall i hi)

theorem requests_filter {c : Client} {es : List Entry} {id i : Nat} (hi : i ≠ id) (h : Requests c es i) :
    Requests c (es.filter fun x => x.id != id) i := by
  obtain ⟨e, he, rfl, hbit⟩ := h
  exact ⟨e, List.mem_filter.mpr ⟨he, by simpa using hi⟩, rfl, hbit⟩

theorem requests_map {c : Client} {es : List Entry} {f : Entry → Entry} {i : Nat}
    (hf : ∀ e ∈ es, (f e).id = e.id ∧ (has e.reqs (bitOf c) = true → has (f e).reqs (bitOf c) = true))
    (h : Requests c es i) : Requests c (es.map f) i := by
  obtain ⟨e, he, rfl, hbit⟩ := h
  exact ⟨f e, List.mem_map_of_mem he, (hf e he).1, (hf e he).2 hbit⟩

theorem has_or {n : Nat} (a b : BitVec n) (i : Nat) : has (a ||| b) i = (has a i || has b i) := by
  simp [has]

/-- A merge moves the wait sets of the absorbed entry to the one that absorbs it (R113). -/
theorem WaitOk.absorbed {c : Client} {es : List Entry} {a b : Entry} (hok : EntriesOk es) (ha : a ∈ es) (hb : b ∈ es)
    (hne : a.id ≠ b.id) {wait : List Nat} (h : WaitOk c es wait) :
    WaitOk c (absorbedEntries a b es) (absorbedWait a.id b.id wait) := by
  obtain ⟨hwait, hnodup, hall⟩ := h
  have habsorbing : absorbing a b ∈ absorbedEntries a b es :=
    List.mem_filter.mpr ⟨List.mem_map.mpr ⟨a, ha, if_pos rfl⟩, by simpa [absorbing] using hne⟩
  have hbit : ∀ x, x = a ∨ x = b → has x.reqs (bitOf c) = true → Requests c (absorbedEntries a b es) a.id := by
    rintro x hx hr
    refine ⟨absorbing a b, habsorbing, rfl, ?_⟩
    show has (a.reqs ||| b.reqs) (bitOf c) = true
    rw [has_or, Bool.or_eq_true]
    rcases hx with rfl | rfl
    · exact .inl hr
    · exact .inr hr
  have hkeep : ∀ i, i ≠ b.id → Requests c es i → Requests c (absorbedEntries a b es) i := by
    rintro i hi ⟨x, hx, rfl, hr⟩
    by_cases hxa : x.id = a.id
    · rw [hxa]
      exact hbit x (.inl (hok.eq_of_id hx ha hxa)) hr
    · exact ⟨x, List.mem_filter.mpr ⟨List.mem_map.mpr ⟨x, hx, if_neg hxa⟩, by simpa using hi⟩, rfl, hr⟩
  unfold absorbedWait
  by_cases hin : wait.contains a.id = true
  · rw [if_pos hin]
    have hmem : a.id ∈ wait.filter (· != b.id) :=
      List.mem_filter.mpr ⟨List.contains_iff_mem.mp hin, by simpa using hne⟩
    refine ⟨List.ne_nil_of_mem hmem, hnodup.filter _, fun i hi => ?_⟩
    obtain ⟨hi, hib⟩ := List.mem_filter.mp hi
    exact hkeep i (by simpa using hib) (hall i hi)
  · rw [if_neg hin]
    have hnot : a.id ∉ wait := fun h => hin (List.contains_iff_mem.mpr h)
    refine ⟨by simpa using hwait, List.Nodup.map_on (fun i hi j hj hij => ?_) hnodup, fun i hi => ?_⟩
    · by_cases hib : i = b.id <;> by_cases hjb : j = b.id
      · omega
      · rw [if_pos hib, if_neg hjb] at hij
        exact absurd (hij ▸ hj) hnot
      · rw [if_neg hib, if_pos hjb] at hij
        exact absurd (hij ▸ hi) hnot
      · rwa [if_neg hib, if_neg hjb] at hij
    · obtain ⟨j, hj, rfl⟩ := List.mem_map.mp hi
      obtain ⟨x, hx, hxid, hr⟩ := hall j hj
      by_cases hjb : j = b.id
      · rw [if_pos hjb]
        exact hbit x (.inr (hok.eq_of_id hx hb (hxid.trans hjb))) hr
      · rw [if_neg hjb]
        exact hkeep j hjb ⟨x, hx, hxid, hr⟩

/-! ### A new mark (R122) -/

theorem insertMark_cons (m x : Mark) (ms : List Mark) :
    insertMark m (x :: ms) = if x.number < m.number then x :: insertMark m ms else m :: x :: ms := by
  unfold insertMark
  by_cases h : x.number < m.number <;> simp [h]

theorem insertMark_sorted {m : Mark} {ms : List Mark} (hnew : ∀ x ∈ ms, x.number ≠ m.number)
    (h : ms.Pairwise fun a b => a.number < b.number) : (insertMark m ms).Pairwise fun a b => a.number < b.number := by
  induction ms with
  | nil => exact List.pairwise_singleton _ _
  | cons x ms ih =>
    have hnx : x.number ≠ m.number := hnew x (by simp)
    have hrest : ∀ y ∈ ms, x.number < y.number := (List.pairwise_cons.mp h).1
    rw [insertMark_cons]
    split
    · rename_i hlt
      refine List.pairwise_cons.mpr ⟨fun y hy => ?_, ih (fun y hy => hnew y (by simp [hy])) (List.pairwise_cons.mp h).2⟩
      rcases mem_insertMark.mp hy with rfl | hy
      · exact hlt
      · exact hrest y hy
    · rename_i hge
      refine List.pairwise_cons.mpr ⟨fun y hy => ?_, h⟩
      rcases List.mem_cons.mp hy with rfl | hy
      · omega
      · have := hrest y hy
        omega

/-- With fewer than 4 marks open, the lowest number that is free is 0..3 and no open mark has it; every lower one is taken
(R122). -/
theorem freeMark_free {ms : List Mark} (hlen : ms.length < 4) :
    freeMark ms < 4 ∧ (∀ m ∈ ms, m.number ≠ freeMark ms) ∧ ∀ n < freeMark ms, ∃ m ∈ ms, m.number = n := by
  unfold freeMark
  cases hf : (List.range 4).find? fun n => !ms.any fun m => m.number == n with
  | none =>
    exfalso
    have hsub : List.range 4 ⊆ ms.map Mark.number := fun n hn => by
      have := List.find?_eq_none.mp hf n hn
      simpa using this
    have := (List.subperm_of_subset List.nodup_range hsub).length_le
    simp at this
    omega
  | some n =>
    obtain ⟨hfree, as, bs, hsplit, hbefore⟩ := List.find?_eq_some_iff_append.mp hf
    have hn : n ∈ List.range 4 := List.mem_of_find?_eq_some hf
    refine ⟨List.mem_range.mp hn, fun m hm hmn => ?_, fun k hk => ?_⟩
    · simp only [Bool.not_eq_true', List.any_eq_false, beq_iff_eq] at hfree
      exact hfree m hm hmn
    · have hkr : k ∈ as := by
        have hk4 : k ∈ as ++ n :: bs := hsplit ▸ List.mem_range.mpr (hk.trans (List.mem_range.mp hn))
        have hsorted : (as ++ n :: bs).Pairwise (· < ·) := hsplit ▸ List.pairwise_lt_range
        rcases List.mem_append.mp hk4 with h | h
        · exact h
        · rcases List.mem_cons.mp h with rfl | h
          · exact absurd hk (lt_irrefl k)
          · have := (List.pairwise_cons.mp (List.pairwise_append.mp hsorted).2.1).1 k h
            exact absurd hk (by simp only [Option.getD_some]; omega)
      simpa using hbefore k hkr

theorem MarksOk.opened {c : Client} {es : List Entry} {ms : List Mark} (h : MarksOk c es ms) (hids : (es.map Entry.id).Nodup)
    (hlen : ms.length < 4) (hwait : requestedBy c es ≠ []) :
    MarksOk c es (insertMark { number := freeMark ms, wait := requestedBy c es } ms) := by
  obtain ⟨hlt, hnew, -⟩ := freeMark_free hlen
  refine ⟨insertMark_sorted hnew h.1, fun m hm => ?_⟩
  rcases mem_insertMark.mp hm with rfl | hm
  · refine ⟨hlt, hwait, hids.sublist (List.filter_sublist.map _), fun i hi => ?_⟩
    obtain ⟨e, he, rfl⟩ := List.mem_map.mp hi
    exact ⟨e, (List.mem_filter.mp he).1, rfl, (List.mem_filter.mp he).2⟩
  · exact h.2 m hm

/-! ### Every small change of the queue -/

/-- The queue is as R101, R102 and R104 say, and where `marks` holds the marks are as R122 and R123 say. -/
structure QueueOk (marks : Prop) (s : State) : Prop where
  entries : EntriesOk s.queue.entries
  twins : NoTwins s.queue.entries
  counter : 1 ≤ s.queue.counter ∧ s.queue.counter ≤ 65535
  marks : marks → ∀ c, MarksOk c s.queue.entries (perGet s.queue.marks c)

namespace QueueOk

variable {p : Prop} {s t : State}

theorem of_eq (h : QueueOk p s) (hq : t.queue = s.queue) : QueueOk p t := by
  obtain ⟨he, ht, hc, hm⟩ := h
  rw [← hq] at he ht hc hm
  exact ⟨he, ht, hc, hm⟩

theorem left (h : QueueOk p s) (e : Entry) (out : TestOutcome) (reqs : RequesterSet) (c : Option Client) :
    QueueOk p (leaveQueue e out reqs c s) := by
  obtain ⟨hentries, hcounter, -⟩ := leaveQueue_queue e out reqs c s
  refine ⟨?_, ?_, ?_, fun hp d => ?_⟩
  · rw [hentries]
    exact h.entries.sublist List.filter_sublist
  · rw [hentries]
    exact h.twins.subset List.filter_sublist.subset
  · rw [hcounter]
    exact h.counter
  · rw [hentries, leaveQueue_marks]
    exact (h.marks hp d).kept fun _ => requests_filter

theorem runs (h : QueueOk p s) (id acq : Nat) : QueueOk p (runningState id acq s) where
  entries := h.entries.map (keepsPlaces_running id (some acq) _)
  twins := h.twins.map (keepsPlaces_running id (some acq) _) fun e _ hw => by
    split at hw
    · cases hw
    · exact hw
  counter := h.counter
  marks hp c := (h.marks hp c).mono fun _ => requests_map fun e _ => by split <;> exact ⟨rfl, fun hr => hr⟩

theorem stopped (h : QueueOk p s) : QueueOk p (stopRunning s) := by
  rcases stopRunning_cases s with h' | ⟨e, hrun, -, h'⟩ <;> rw [h']
  · exact h
  have he : e ∈ s.queue.entries := List.mem_of_find?_eq_some hrun
  have hentries : (waitingState e.id (stopAcquisition s)).queue.entries = waitingEntries e.id s.queue.entries :=
    congrArg (fun q : Queue => waitingEntries e.id q.entries) (stopAcquisition_queue s)
  have hcounter : (stopAcquisition s).queue.counter = s.queue.counter := congrArg Queue.counter (stopAcquisition_queue s)
  have hmarks : (stopAcquisition s).queue.marks = s.queue.marks := congrArg Queue.marks (stopAcquisition_queue s)
  have hok := h.entries.map (keepsPlaces_running e.id none s.queue.entries)
  have hreq : p → ∀ c, MarksOk c (waitingEntries e.id s.queue.entries) (perGet s.queue.marks c) := fun hp c =>
    (h.marks hp c).mono fun _ => requests_map fun x _ => by split <;> exact ⟨rfl, fun hx => hx⟩
  rcases mergeTwins_cases e.route e.kind (waitingState e.id (stopAcquisition s)) with ⟨hone, k⟩ | ⟨a, b, rest, hab, k⟩ <;>
    rw [k]
  · rw [hentries] at hone
    refine ⟨hentries ▸ hok, hentries ▸ noTwins_of_one h.entries h.twins he hone, ?_, fun hp c => ?_⟩
    · exact hcounter.symm ▸ h.counter
    · rw [hentries]
      exact (congrArg (fun m => MarksOk c (waitingEntries e.id s.queue.entries) (perGet m c)) hmarks).mpr (hreq hp c)
  · rw [hentries] at hab
    obtain ⟨ha, hb, hwa, hwb, hne, hcls⟩ := filter_head_two hok hab
    obtain ⟨hwa, har, hak⟩ := waitsFor_iff.mp hwa
    obtain ⟨hwb, hbr, hbk⟩ := waitsFor_iff.mp hwb
    have hplaces := keepsPlaces_absorbing (b := b) hok ha hcls
    have hafter : (absorb a b (waitingState e.id (stopAcquisition s))).queue.entries
        = absorbedEntries a b (waitingEntries e.id s.queue.entries) := congrArg (absorbedEntries a b) hentries
    refine ⟨?_, ?_, ?_, fun hp c => ?_⟩
    · rw [hafter]
      exact (hok.map hplaces).sublist List.filter_sublist
    · rw [hafter]
      exact noTwins_absorbed h.entries h.twins he ha hb ⟨hwa, hwb, har.trans hbr.symm, hak.trans hbk.symm⟩ hne hplaces
    · exact hcounter.symm ▸ h.counter
    · have hwaits : perGet (absorb a b (waitingState e.id (stopAcquisition s))).queue.marks c
          = (perGet s.queue.marks c).map fun m => { m with wait := absorbedWait a.id b.id m.wait } := by
        rw [← hmarks]
        exact perGet_perGen _ c
      rw [hafter, hwaits]
      exact (hreq hp c).rewait fun m _ hm => hm.absorbed hok ha hb hne

theorem joined (h : QueueOk p s) {who : Nat} (hwho : IsRequester who) {e : Entry} (he : e ∈ s.queue.entries) :
    QueueOk p (joinedState who e s) := by
  have hmap : (joinedState who e s).queue.entries
      = s.queue.entries.map fun x => if x.id = e.id then { x with reqs := add x.reqs who } else x :=
    replaced_eq h.entries he fun x => { x with reqs := add x.reqs who }
  have hplaces : KeepsPlaces (fun x => if x.id = e.id then { x with reqs := add x.reqs who } else x) s.queue.entries := by
    refine ⟨fun x _ => ?_, fun x _ => ?_, fun x _ => ?_, fun x _ => ?_, fun x _ hx => ?_⟩ <;> by_cases hid : x.id = e.id <;>
      simp only [hid, if_true, if_false]
    · exact add_ne_zero _ _ hwho
    · exact hx
  refine ⟨hmap ▸ h.entries.map hplaces, hmap ▸ h.twins.map hplaces fun x _ hw => ?_, h.counter, fun hp c => ?_⟩
  · split at hw <;> exact hw
  · rw [hmap]
    refine (h.marks hp c).mono fun _ => requests_map fun x hx => ⟨hplaces.id x hx, fun hr => ?_⟩
    split
    · rw [has_add _ _ _ hwho, hr, Bool.true_or]
    · exact hr

theorem requests_place {c : Client} {e e' : Entry} {es : List Entry} {i : Nat} (hok : EntriesOk es) (he : e ∈ es)
    (hid : e'.id = e.id) (hreq : has e.reqs (bitOf c) = true → has e'.reqs (bitOf c) = true) (h : Requests c es i) :
    Requests c (placeEntry e' (es.filter fun x => x.id != e.id)) i := by
  obtain ⟨x, hx, rfl, hr⟩ := h
  by_cases hxe : x.id = e.id
  · have hx' : x = e := hok.eq_of_id hx he hxe
    exact ⟨e', mem_placeEntry.mpr (.inl rfl), hid.trans hxe.symm, hreq (hx' ▸ hr)⟩
  · exact ⟨x, mem_placeEntry.mpr (.inr (List.mem_filter.mpr ⟨hx, by simpa using hxe⟩)), rfl, hr⟩

theorem upgraded (h : QueueOk p s) {who : Nat} (hwho : IsRequester who) {e : Entry} (he : e ∈ s.queue.entries) :
    QueueOk p (upgradedState who e s) := by
  have hrest := h.entries.sublist (List.filter_sublist (p := fun x => x.id != e.id))
  have hfewer : (s.queue.entries.filter fun x => x.id != e.id).length < 32 := by
    have hlt : (s.queue.entries.filter fun x => x.id != e.id).length < s.queue.entries.length :=
      List.length_filter_lt_length_iff_exists.mpr ⟨e, he, by simp⟩
    have := h.entries.len
    omega
  obtain ⟨h1, hmax, -⟩ := h.entries.each e he
  refine ⟨hrest.place (e := upgradedEntry who e) hfewer
    (fun x hx => (bne_iff_ne (b := e.id)).mp (List.mem_filter.mp hx).2) h1 hmax (add_ne_zero _ _ hwho), ?_,
    h.counter, fun hp c => ?_⟩
  · refine (h.twins.subset List.filter_sublist.subset).place (e := upgradedEntry who e) fun x hx htwins => ?_
    obtain ⟨hx, hne⟩ := List.mem_filter.mp hx
    exact (show x.id ≠ e.id by simpa using hne) (h.twins x hx e he htwins)
  · exact (h.marks hp c).mono fun _ => requests_place (e' := upgradedEntry who e) h.entries he rfl fun hr => by
      show has (add e.reqs who) _ = true
      rw [has_add _ _ _ hwho, hr, Bool.true_or]

theorem placed (h : QueueOk p s) {who : Nat} (hwho : IsRequester who) {r : RouteNo} {k : TestKind} (cls : TestClass)
    (hlen : s.queue.entries.length < 32)
    (hno : ∀ e ∈ s.queue.entries, isWaiting e = true → ¬(e.route = r ∧ e.kind = k)) :
    QueueOk p (placedState (freshId s.queue.entries 33 s.queue.counter) who r k cls s) := by
  have hfree := freshId_firstFree h.entries.len h.counter.1 h.counter.2
  obtain ⟨h1, hmax⟩ := hfree.bounds
  refine ⟨h.entries.place hlen hfree.not_mem h1 hmax (add_ne_zero _ _ hwho), ?_, nextId_bounds h1, fun hp c => ?_⟩
  · refine h.twins.place fun x hx htwins => ?_
    obtain ⟨hw, -, hr, hk⟩ := htwins
    exact hno x hx hw ⟨hr, hk⟩
  · refine (h.marks hp c).mono fun i hi => ?_
    obtain ⟨x, hx, hxid, hr⟩ := hi
    exact ⟨x, mem_placeEntry.mpr (.inr hx), hxid, hr⟩

theorem withdrawn (h : QueueOk p s) {c : Client} {e : Entry} (he : e ∈ s.queue.entries)
    (hleft : del e.reqs (bitOf c) ≠ 0) : QueueOk p (withdrawnState c e.id (del e.reqs (bitOf c)) s) := by
  obtain ⟨hentries, hcounter, -⟩ := dropFromMarks_queue c e.id (setEntries (s.queue.entries.map fun x =>
    if x.id = e.id then { x with reqs := del e.reqs (bitOf c) } else x) s)
  have hplaces := keepsPlaces_reqs e.id hleft s.queue.entries
  refine ⟨hentries ▸ h.entries.map hplaces, hentries ▸ h.twins.map hplaces fun x _ hw => ?_, hcounter ▸ h.counter,
    fun hp d => ?_⟩
  · split at hw <;> exact hw
  · have hother : ∀ i, (d ≠ c ∨ i ≠ e.id) → Requests d s.queue.entries i →
        Requests d (withdrawnState c e.id (del e.reqs (bitOf c)) s).queue.entries i := by
      rintro i hdi ⟨x, hx, rfl, hr⟩
      unfold withdrawnState
      rw [hentries]
      refine ⟨_, List.mem_map_of_mem hx, hplaces.id x hx, ?_⟩
      split
      · rename_i hid
        have hxe := h.entries.eq_of_id hx he hid
        have hdc : d ≠ c := hdi.resolve_right fun hne => hne hid
        show has (del e.reqs (bitOf c)) (bitOf d) = true
        have hbit : bitOf c ≠ bitOf d := fun hb => hdc (by cases c <;> cases d <;> simp_all [bitOf])
        rw [has_del, ← hxe, hr]
        simpa using hbit
      · exact hr
    unfold withdrawnState at hother ⊢
    rw [dropFromMarks_marks]
    split
    · exact (h.marks hp d).kept fun i hi => hother i (.inr hi)
    · rename_i hdc
      exact (h.marks hp d).mono fun i => hother i (.inl hdc)

theorem openedMark (h : QueueOk p s) {c : Client} (hlen : (perGet s.queue.marks c).length < 4)
    (hwait : requestedBy c s.queue.entries ≠ []) : QueueOk p (openedState c s) := by
  refine ⟨h.entries, h.twins, h.counter, fun hp d => ?_⟩
  show MarksOk d s.queue.entries (perGet (perSet s.queue.marks c _) d)
  rw [perGet_perSet]
  split
  · rename_i hdc
    rw [hdc]
    exact (h.marks hp c).opened h.entries.ids hlen hwait
  · exact h.marks hp d

theorem empty (hq : s.queue = Queue.empty) : QueueOk p s := by
  have hok : EntriesOk Queue.empty.entries := ⟨Nat.zero_le _, List.nodup_nil, by simp [Queue.empty], List.Pairwise.nil⟩
  refine ⟨hq ▸ hok, ?_, ?_, fun _ c => ?_⟩ <;> rw [hq]
  · intro a ha
    cases ha
  · decide
  · have hnone : perGet Queue.empty.marks c = [] := perGet_const [] c
    rw [hnone]
    exact ⟨List.Pairwise.nil, by simp⟩

end QueueOk

theorem queueOk_cardStable (p : Prop) : CardStable (QueueOk p) where
  frame h _ _ hq _ := h.of_eq hq
  log _ _ h := h.of_eq rfl
  raise _ _ _ _ h := h.of_eq rfl
  leave e out reqs c _ h := h.left e out reqs c
  runs id acq _ h := h.runs id acq
  stopped _ h := h.stopped
  joined _ _ _ hwho he h := h.joined hwho he
  upgraded _ _ _ hwho he h := h.upgraded hwho he
  placed _ _ _ cls _ hwho _ hlen hno h := h.placed hwho cls hlen hno
  withdrawn _ _ _ he hleft h := h.withdrawn he hleft
  opened _ _ hlen hwait h := h.openedMark hlen hwait
  switches _ _ _ _ _ _ _ h := h.of_eq rfl
  cleared _ _ _ h := h.of_eq rfl
  read _ _ h := h.of_eq rfl
  pulse _ _ h := h.of_eq rfl
  reset _ _ _ hq := QueueOk.empty hq
  routed _ _ _ _ h := h.of_eq rfl
  deletes c r s _ h := CardStable.deletes_of_routed (fun _ _ _ h => h.of_eq rfl) (fun h _ _ hq _ => h.of_eq hq)
    (fun _ _ h => h.of_eq rfl) (fun _ _ _ _ h => h.of_eq rfl) (fun e out reqs c _ h => h.left e out reqs c) c r s h

theorem queueOk_iff {p : Prop} {s : State} : QueueOk p s ↔ QueueLaw s ∧ (p → MarkLaw s) := by
  rw [queueLaw_iff]
  exact ⟨fun ⟨he, ht, hc, hm⟩ => ⟨⟨he, ht, hc⟩, hm⟩, fun ⟨⟨he, ht, hc⟩, hm⟩ => ⟨he, ht, hc, hm⟩⟩

/-- Settles O11: each small change of the queue keeps its order and the marks' wait sets. -/
theorem everyStepKeepsQueueAndMarkLaw : Obligations.EveryStepKeepsQueueAndMarkLaw := by
  intro s t hq hstep
  exact queueOk_iff.mp ((queueOk_cardStable (MarkLaw s)).step (queueOk_iff.mpr ⟨hq, id⟩) hstep)

end Sys2Proof.Machine
end

section
/-!
The port: what a take, a stop order and the hand-out do, in the words of the statements (R17, R109 to R116), and the engine that
neither takes an entry nor gives one up.
-/
namespace Sys2Proof.Machine

/-! ### An entry in its place -/

theorem ne_of_split {pre post : List Entry} {e : Entry} (h : ((pre ++ e :: post).map Entry.id).Nodup) :
    (∀ x ∈ pre, x.id ≠ e.id) ∧ ∀ x ∈ post, x.id ≠ e.id := by
  rw [List.map_append, List.map_cons, List.nodup_middle, List.nodup_cons, List.mem_append] at h
  obtain ⟨hnot, -⟩ := h
  exact ⟨fun x hx hid => hnot (.inl (hid ▸ List.mem_map_of_mem hx)), fun x hx hid => hnot (.inr (hid ▸ List.mem_map_of_mem hx))⟩

theorem map_at_of_ne {es : List Entry} {id : Nat} {f : Entry → Entry} (h : ∀ x ∈ es, x.id ≠ id) :
    (es.map fun x => if x.id = id then f x else x) = es :=
  (List.map_congr_left fun x hx => if_neg (h x hx)).trans (List.map_id _)

theorem map_at {pre post : List Entry} {e : Entry} (h : ((pre ++ e :: post).map Entry.id).Nodup) (f : Entry → Entry) :
    ((pre ++ e :: post).map fun x => if x.id = e.id then f x else x) = pre ++ f e :: post := by
  obtain ⟨hpre, hpost⟩ := ne_of_split h
  rw [List.map_append, List.map_cons, map_at_of_ne hpre, map_at_of_ne hpost, if_pos rfl]

theorem filter_at {pre post : List Entry} {e : Entry} (h : ((pre ++ e :: post).map Entry.id).Nodup) :
    (pre ++ e :: post).filter (fun x => x.id != e.id) = pre ++ post := by
  obtain ⟨hpre, hpost⟩ := ne_of_split h
  rw [List.filter_append, List.filter_cons_of_neg (by simp)]
  congr 1 <;> rw [List.filter_eq_self] <;> intro x hx
  · exact bne_iff_ne.mpr (hpre x hx)
  · exact bne_iff_ne.mpr (hpost x hx)

theorem find_id_eq {es : List Entry} (h : (es.map Entry.id).Nodup) {e : Entry} (he : e ∈ es) :
    es.find? (fun x => x.id == e.id) = some e := by
  obtain ⟨pre, post, rfl⟩ := List.append_of_mem he
  rw [List.find?_append, List.find?_cons_of_pos (by simp), List.find?_eq_none.mpr, Option.none_or]
  exact fun x hx => by simpa using (ne_of_split h).1 x hx

/-! ### The running entry (R103) -/

/-- No entry is RUNNING. -/
def AllWaiting (s : State) : Prop := ∀ e ∈ s.queue.entries, isWaiting e = true

theorem isWaiting_iff {e : Entry} : isWaiting e = true ↔ e.running = none := by
  simp [isWaiting]

theorem isWaiting_eq_false_iff {e : Entry} : isWaiting e = false ↔ ∃ acq, e.running = some acq := by
  simp [isWaiting, Option.isSome_iff_exists]

/-- The running entry `e` of the queue, which the engine recorded as `run` at its take. -/
structure Runs (s : State) (run : Running) (e : Entry) : Prop where
  engine : s.engine.running = some run
  mem : e ∈ s.queue.entries
  only : ∀ x ∈ s.queue.entries, isWaiting x = false → x = e
  found : runningEntry s = some e
  id : e.id = run.id
  route : e.route = run.route
  kind : e.kind = run.kind
  cls : e.cls = run.cls
  acq : e.running = some s.engine.acq

theorem RunLaw.runs {s : State} (h : RunLaw s) (hbusy : busyState s.engine.state = true) : ∃ run e, Runs s run e := by
  obtain ⟨run, e, hrun, hone, hid, hroute, hkind, hcls, hacq⟩ := h.1 hbusy
  have hmem : e ∈ s.queue.entries.filter fun x => !isWaiting x := by rw [hone]; simp
  refine ⟨run, e, hrun, (List.mem_filter.mp hmem).1, fun x hx hw => ?_, ?_, hid, hroute, hkind, hcls, hacq⟩
  · have hx' : x ∈ s.queue.entries.filter fun x => !isWaiting x := List.mem_filter.mpr ⟨hx, by rw [hw]; rfl⟩
    rw [hone] at hx'
    exact List.mem_singleton.mp hx'
  · unfold runningEntry
    have hp : (fun e : Entry => e.running.isSome) = fun x => !isWaiting x := funext fun x => by simp [isWaiting]
    rw [hp, ← List.head?_filter, hone]
    rfl

theorem RunLaw.waits {s : State} (h : RunLaw s) (hfree : busyState s.engine.state = false) :
    s.engine.running = none ∧ AllWaiting s := h.2 hfree

theorem Runs.not_waiting {s : State} {run : Running} {e : Entry} (h : Runs s run e) : isWaiting e = false :=
  isWaiting_eq_false_iff.mpr ⟨_, h.acq⟩

theorem busy_of_canStop {st : EngineState} (h : canStop st = true) : busyState st = true := by
  cases st with
  | switching | liveCheck | firing | analysing | committing => rfl
  | idle | recovering | faulted => cases h

theorem canStop_of_idle {st : EngineState} (h : st = .idle) : canStop st = false ∧ busyState st = false := by
  subst h
  exact ⟨rfl, rfl⟩

/-- The RUNNING entry of a queue in which one stands while the engine can be stopped. -/
theorem RunLaw.runs_of_mem {s : State} (h : RunLaw s) {e : Entry} (he : e ∈ s.queue.entries) (hw : isWaiting e = false) :
    ∃ run, Runs s run e := by
  cases hb : busyState s.engine.state with
  | true =>
    obtain ⟨run, x, hx⟩ := h.runs hb
    exact ⟨run, hx.only e he hw ▸ hx⟩
  | false => exact absurd ((h.waits hb).2 e he) (by rw [hw]; decide)

/-- The law from its parts. -/
theorem runLaw_of_waiting {s : State} (hfree : busyState s.engine.state = false) (hrun : s.engine.running = none)
    (hall : AllWaiting s) : RunLaw s :=
  ⟨fun hb => absurd hb (by rw [hfree]; decide), fun _ => ⟨hrun, hall⟩⟩

/-! ### An engine that neither takes nor gives up an entry (R17, R110) -/

theorem stopRunning_of_fixed {s : State} (h : canStop s.engine.state = false) : stopRunning s = s := by
  rcases stopRunning_eq s with k | ⟨e, -, hs, -⟩
  · exact k
  · simp [stopsFor, h] at hs

theorem preempt_of_fixed {s : State} (h : canStop s.engine.state = false) : preempt s = s := by
  unfold preempt
  split
  · rw [stopRunning_of_fixed h, ite_self]
  · rfl

theorem arbitrate_of_fixed {s : State} (h : EngineFixed s) : arbitrate s = s := by
  rw [arbitrate, preempt_of_fixed h.2, handOut_of_not_idle h.1]

theorem coverageReport_of_fixed {s : State} (h : EngineFixed s) : coverageReport s = s := by
  unfold coverageReport
  split
  · rw [stopRunning_of_fixed h.2, ite_self, handOut_of_not_idle h.1]
  · exact handOut_of_not_idle h.1

theorem routeReport_of_fixed {s : State} (was : RouteNo → Bool) (h : EngineFixed s) : routeReport was s = s := by
  unfold routeReport
  split
  · rw [stopRunning_of_fixed h.2, ite_self, arbitrate_of_fixed h]
  · exact arbitrate_of_fixed h

/-- While the engine is fixed a TEST is placed and nothing else comes of it. -/
theorem askTest_of_fixed_cases (who : Nat) (r : RouteNo) (k : TestKind) (cls : TestClass) {s : State} (h : EngineFixed s) :
    (askTest who r k cls s).2 = s
      ∨ (∃ e ∈ s.queue.entries, isWaiting e = true ∧ e.route = r ∧ e.kind = k
          ∧ ((cls = .urgent ∧ e.cls = .routine) ∧ (askTest who r k cls s).2 = upgradedState who e s
            ∨ ¬(cls = .urgent ∧ e.cls = .routine) ∧ (askTest who r k cls s).2 = joinedState who e s))
      ∨ (askTest who r k cls s).2 = placedState (freshId s.queue.entries 33 s.queue.counter) who r k cls s := by
  have hplaced (id : Nat) : EngineFixed (placedState id who r k cls s) := h
  rcases askTest_placed who r k cls s with h' | ⟨-, -, ⟨e, hm, hw, hr, hk, h'⟩ | ⟨-, -, h'⟩⟩ <;> rw [h']
  · exact .inl rfl
  · refine .inr (.inl ⟨e, hm, hw, hr, hk, ?_⟩)
    rcases joinEntry_cases who cls e s with ⟨hc, k⟩ | ⟨hc, k⟩ <;> rw [k]
    · exact .inl ⟨hc, arbitrate_of_fixed (s := upgradedState who e s) h⟩
    · exact .inr ⟨hc, rfl⟩
  · refine .inr (.inr ?_)
    rcases newEntry_cases (freshId s.queue.entries 33 s.queue.counter) who r k cls s with ⟨-, k⟩ | ⟨-, k⟩ <;> rw [k]
    · exact arbitrate_of_fixed (hplaced _)
    · exact handOut_of_not_idle (hplaced _).1

theorem askTest_of_fixed (who : Nat) (r : RouteNo) (k : TestKind) (cls : TestClass) {s : State} (h : EngineFixed s) :
    QueueOnly s (askTest who r k cls s).2 := by
  rcases askTest_of_fixed_cases who r k cls h with h' | ⟨e, -, -, -, -, ⟨-, h'⟩ | ⟨-, h'⟩⟩ | h' <;> rw [h'] <;>
    constructor <;> rfl

/-- What a finding leaves as it is while the engine is fixed: the engine, the front end, the switch and the store. -/
structure PortStands (s t : State) : Prop where
  engine : t.engine = s.engine
  front : t.front = s.front
  switch : t.switch = s.switch
  store : t.store = s.store

theorem PortStands.refl (s : State) : PortStands s s := ⟨rfl, rfl, rfl, rfl⟩

theorem PortStands.trans {s t u : State} (h : PortStands s t) (k : PortStands t u) : PortStands s u :=
  ⟨k.engine.trans h.engine, k.front.trans h.front, k.switch.trans h.switch, k.store.trans h.store⟩

theorem QueueOnly.stands {s t : State} (h : QueueOnly s t) : PortStands s t := ⟨h.engine, h.front, h.switch, h.store⟩

theorem takeFinding_of_fixed (f : Finding) {s : State} (h : EngineFixed s) : PortStands s (takeFinding f s) := by
  rcases takeFinding_cases f s with k | ⟨b, -, -, ⟨-, k⟩ | ⟨-, -, k⟩ | ⟨-, -, k⟩⟩ <;> rw [k]
  · exact .refl s
  · exact ⟨rfl, rfl, rfl, rfl⟩
  · exact ⟨rfl, rfl, rfl, rfl⟩
  · have hcand (k : Option Candidate) : PortStands s (setCand f.route k s) := ⟨rfl, rfl, rfl, rfl⟩
    have hfixed (k : Option Candidate) : EngineFixed (setCand f.route k s) := h
    exact (hcand _).trans (askTest_of_fixed _ _ _ _ (hfixed _)).stands

theorem withError_stands (err : Option EquipKind) (r : RouteNo) (s : State) : PortStands s (withError err r s) := by
  cases err <;> exact ⟨rfl, rfl, rfl, rfl⟩

theorem reportFinish_queueOnly (id : Nat) (out : TestOutcome) (s : State) : QueueOnly s (reportFinish id out s) :=
  reportFinish_keeps (P := QueueOnly s) id out s (.refl s) fun e _ => leaveQueue_queueOnly e out e.reqs none s

/-- The state in which the finished entry has left the queue, before its finding goes to the tracker (R16). -/
def leftState (run : Running) (out : TestOutcome) (err : Option EquipKind) (held : Option HeldAnalysis)
    (j : Option Judgement) (s : State) : State :=
  reportFinish run.id out (setRecord run.route (some (finishRecord run s.engine.acq out s.clock.now held j))
    (withError err run.route (returnReservation s)))

theorem finishEntry_eq {s : State} {run : Running} (hrun : s.engine.running = some run) (out : TestOutcome)
    (err : Option EquipKind) (held : Option HeldAnalysis) (j : Option Judgement) :
    finishEntry out err held j s = giveFinding run s.engine.acq held j (leftState run out err held j s) := by
  unfold finishEntry leftState
  rw [hrun]

theorem finishEntry_of_none {s : State} (hrun : s.engine.running = none) (out : TestOutcome)
    (err : Option EquipKind) (held : Option HeldAnalysis) (j : Option Judgement) : finishEntry out err held j s = s := by
  unfold finishEntry
  rw [hrun]

theorem leftState_stands (run : Running) (out : TestOutcome) (err : Option EquipKind) (held : Option HeldAnalysis)
    (j : Option Judgement) (s : State) : PortStands (returnReservation s) (leftState run out err held j s) := by
  have hrec (r : RouteNo) (t : Option TestRecord) (u : State) : PortStands u (setRecord r t u) := ⟨rfl, rfl, rfl, rfl⟩
  unfold leftState
  exact ((withError_stands err run.route _).trans (hrec _ _ _)).trans (reportFinish_queueOnly _ _ _).stands

/-- A finding is given while the engine is fixed, or there is none to give. -/
theorem giveFinding_stands (run : Running) (acq : Nat) (held : Option HeldAnalysis) {j : Option Judgement} {s : State}
    (h : j = none ∨ EngineFixed s) : PortStands s (giveFinding run acq held j s) := by
  unfold giveFinding
  split
  · rcases h with h | h
    · cases h
    · exact takeFinding_of_fixed _ h
  · exact .refl s

/-- A finish leaves the port as the return of the reservation does: the engine takes its new state after it (R16). -/
theorem finishEntry_stands {s : State} {run : Running} (hrun : s.engine.running = some run) (out : TestOutcome)
    (err : Option EquipKind) (held : Option HeldAnalysis) {j : Option Judgement} (h : j = none ∨ EngineFixed s) :
    PortStands (returnReservation s) (finishEntry out err held j s) := by
  have hleft := leftState_stands run out err held j s
  have hengine : (leftState run out err held j s).engine = s.engine := hleft.engine.trans (returnReservation_engine s)
  rw [finishEntry_eq hrun]
  refine hleft.trans (giveFinding_stands _ _ _ (h.imp_right fun hf => ?_))
  unfold EngineFixed
  rwa [hengine]

/-! ### The take (R6 to R8, R110) -/

theorem startSwitching_of_away {r : RouteNo} {s : State} (h : s.switch ≠ .standing (.port r)) :
    startSwitching r s = { s with
      switch := .moving (.port r)
      engine := { s.engine with state := .switching, shotCount := 0, timer := some (.switch (timeoutMs s.device.timeout)) } } := by
  simp only [startSwitching, commandedTo, if_neg h]

theorem startSwitching_of_there {r : RouteNo} {s : State} (h : s.switch = .standing (.port r)) :
    startSwitching r s = { s with
      front := { s.front with checking := true }
      engine := { s.engine with state := .liveCheck, shotCount := 0, timer := some .liveCheck } } := by
  simp only [startSwitching, commandedTo, if_pos h, startLiveCheck]

/-- The entries with `e` RUNNING. -/
theorem taken_entries {pre post : List Entry} {e : Entry} {s : State} (hsplit : s.queue.entries = pre ++ e :: post)
    (hids : (s.queue.entries.map Entry.id).Nodup) (acq : Nat) :
    (s.queue.entries.map fun x => if x.id = e.id then { x with running := some acq } else x)
      = pre ++ { e with running := some acq } :: post := by
  rw [hsplit] at hids ⊢
  exact map_at hids fun x => { x with running := some acq }

theorem storeTaken_check {e : Entry} (h : e.kind = .check) (b : RouteBody) (s : State) : storeTaken e b s = s.store := by
  unfold storeTaken
  rw [h]

theorem storeTaken_capture {e : Entry} (h : e.kind = .capture) (b : RouteBody) (s : State) :
    storeTaken e b s = { s.store with
      free := s.store.free.drop (b.acq.len / 1024)
      resv := some { route := e.route, acq := (s.engine.acq + 1) % 65536, blocks := s.store.free.take (b.acq.len / 1024),
                     phase := .held } } := by
  unfold storeTaken
  rw [h]

/-- A take of an entry whose blocks are there (R6 to R8, R87). -/
theorem takeEntry_taken {pre post : List Entry} {e : Entry} {b : RouteBody} {s : State}
    (hsplit : s.queue.entries = pre ++ e :: post) (hids : (s.queue.entries.map Entry.id).Nodup)
    (hbody : s.routes[e.route].body = some b) (hblocks : HasBlocks e b s) : Taken pre e post b s (takeEntry e s) := by
  have hentries := taken_entries hsplit hids ((s.engine.acq + 1) % 65536)
  rintro acq queue engine rfl rfl rfl
  rcases takeEntry_cases e s with ⟨hnone, -⟩ | ⟨b', hb', hcases⟩
  · rw [hnone] at hbody
    cases hbody
  · obtain rfl : b = b' := Option.some.inj (hbody.symm.trans hb')
    rcases hcases with ⟨hkind, h⟩ | ⟨hkind, held, hheld, h⟩ | ⟨hkind, hshort, -⟩
    · rw [h]
      refine ⟨fun haway => ?_, fun hthere => ?_⟩
      · rw [startSwitching_of_away (s := taken e b s) haway, ← hentries, storeTaken_check hkind]
        rfl
      · rw [startSwitching_of_there (s := taken e b s) hthere, ← hentries, storeTaken_check hkind]
        rfl
    · rw [h]
      rcases reserve_eq e.route ((s.engine.acq + 1) % 65536) (b.acq.len / 1024) (taken e b s) with ⟨-, k⟩ | ⟨-, k⟩ <;>
        rw [k] at hheld
      · cases hheld
      · cases hheld
        refine ⟨fun haway => ?_, fun hthere => ?_⟩
        · rw [startSwitching_of_away (by exact haway), ← hentries, storeTaken_capture hkind]
          rfl
        · rw [startSwitching_of_there (by exact hthere), ← hentries, storeTaken_capture hkind]
          rfl
    · rcases reserve_eq e.route ((s.engine.acq + 1) % 65536) (b.acq.len / 1024) (taken e b s) with ⟨hlt, -⟩ | ⟨-, k⟩
      · exact absurd (hblocks hkind) (Nat.not_le.mpr hlt)
      · rw [k] at hshort
        cases hshort

theorem Taken.state {pre post : List Entry} {e : Entry} {b : RouteBody} {s t : State} (h : Taken pre e post b s t) :
    t.engine.state = .switching ∨ t.engine.state = .liveCheck := by
  obtain ⟨haway, hthere⟩ := h _ _ _ rfl rfl rfl
  by_cases hsw : s.switch = .standing (.port e.route)
  · rw [hthere hsw]
    exact .inr rfl
  · rw [haway hsw]
    exact .inl rfl

/-- What a take records of the entry, and what it leaves of the laser. -/
theorem Taken.recorded {pre post : List Entry} {e : Entry} {b : RouteBody} {s t : State} (h : Taken pre e post b s t) :
    t.engine.running = some { id := e.id, route := e.route, kind := e.kind, cls := e.cls, settings := b.acq }
      ∧ t.queue.entries = pre ++ { e with running := some t.engine.acq } :: post ∧ t.front.laser = s.front.laser := by
  obtain ⟨haway, hthere⟩ := h _ _ _ rfl rfl rfl
  by_cases hsw : s.switch = .standing (.port e.route)
  · rw [hthere hsw]
    exact ⟨rfl, rfl, rfl⟩
  · rw [haway hsw]
    exact ⟨rfl, rfl, rfl⟩

theorem Taken.not_idle {pre post : List Entry} {e : Entry} {b : RouteBody} {s t : State} (h : Taken pre e post b s t) :
    t.engine.state ≠ .idle := by
  rcases h.state with k | k <;> rw [k] <;> decide

theorem not_hasBlocks_iff {e : Entry} {b : RouteBody} {s : State} :
    ¬HasBlocks e b s ↔ e.kind = .capture ∧ s.store.free.length < b.acq.len / 1024 := by
  simp [HasBlocks]

/-- A take of a capture that finds the pool short (R7, R57, R119). -/
theorem takeEntry_short {pre post : List Entry} {e : Entry} {b : RouteBody} {s : State}
    (hsplit : s.queue.entries = pre ++ e :: post) (hids : (s.queue.entries.map Entry.id).Nodup)
    (hbody : s.routes[e.route].body = some b) (hblocks : ¬HasBlocks e b s) :
    FinishedShort pre e post b s (takeEntry e s) := by
  obtain ⟨hkind, hlt⟩ := not_hasBlocks_iff.mp hblocks
  have htake : takeEntry e s = takeShort e b s := by
    rcases takeEntry_cases e s with ⟨hnone, -⟩ | ⟨b', hb', ⟨hk, -⟩ | ⟨-, held, hheld, -⟩ | ⟨-, -, h⟩⟩
    · rw [hnone] at hbody
      cases hbody
    · rw [hkind] at hk
      cases hk
    · obtain rfl : b = b' := Option.some.inj (hbody.symm.trans hb')
      rcases reserve_eq e.route ((s.engine.acq + 1) % 65536) (b.acq.len / 1024) (taken e b s) with ⟨-, k⟩ | ⟨hle, -⟩
      · rw [k] at hheld
        cases hheld
      · exact absurd hlt (Nat.not_lt.mpr hle)
    · obtain rfl : b = b' := Option.some.inj (hbody.symm.trans hb')
      exact h
  rw [htake]
  unfold takeShort
  dsimp only
  refine ⟨?_, ?_, (leaveQueue_queue _ _ _ _ _).2.1, fun c => leaveQueue_marks _ _ _ _ _ c, ?_, fun c => ?_⟩
  · rw [← hkind]
    exact (leaveQueue_queueOnly _ _ _ _ _).eq
  · rw [(leaveQueue_queue _ _ _ _ _).1]
    show s.queue.entries.filter _ = _
    rw [hsplit] at hids ⊢
    exact filter_at hids
  · rw [← hkind]
    exact (leaveQueue_queue _ _ _ _ _).2.2
  · exact leaveQueue_notices _ _ _ _ _ c

/-! ### The hand-out (R110) -/

theorem firstEligible_of_find {e : Entry} {s : State} (h : s.queue.entries.find? (isEligible s) = some e) :
    ∃ pre post, FirstEligible pre e post s := by
  obtain ⟨helig, pre, post, hsplit, hbefore⟩ := List.find?_eq_some_iff_append.mp h
  exact ⟨pre, post, hsplit, helig, fun x hx => by simpa using hbefore x hx⟩

theorem FirstEligible.find {pre post : List Entry} {e : Entry} {s : State} (h : FirstEligible pre e post s) :
    s.queue.entries.find? (isEligible s) = some e := by
  obtain ⟨hsplit, helig, hbefore⟩ := h
  exact List.find?_eq_some_iff_append.mpr ⟨helig, pre, post, hsplit, fun x hx => by simp [hbefore x hx]⟩

theorem noneEligible_of_find {s : State} (h : s.queue.entries.find? (isEligible s) = none) : NoneEligible s :=
  fun e he => by simpa using List.find?_eq_none.mp h e he

theorem FinishedShort.state {pre post : List Entry} {e : Entry} {b : RouteBody} {s u : State}
    (h : FinishedShort pre e post b s u) : u.engine.state = s.engine.state ∧ u.routes = s.routes := by
  obtain ⟨hu, -⟩ := h
  rw [hu]
  exact ⟨rfl, rfl⟩

theorem handOutLoop_handsOut (n : Nat) {s : State} (hlen : s.queue.entries.length ≤ n)
    (hids : (s.queue.entries.map Entry.id).Nodup) (hbodies : EntryLaw s) : HandsOut s (handOutLoop n s) := by
  induction n generalizing s with
  | zero =>
    refine .nothing fun _ e he => ?_
    rw [List.length_eq_zero_iff.mp (Nat.le_zero.mp hlen)] at he
    cases he
  | succ n ih =>
    unfold handOutLoop
    split
    · rename_i hidle
      split
      · rename_i e hfind
        obtain ⟨pre, post, hfirst⟩ := firstEligible_of_find hfind
        have hsplit := hfirst.1
        obtain ⟨b, hbody⟩ := Option.ne_none_iff_exists'.mp (hbodies e (List.mem_of_find?_eq_some hfind))
        by_cases hblocks : HasBlocks e b s
        · have htaken := takeEntry_taken hsplit hids hbody hblocks
          have hstop : handOutLoop n (takeEntry e s) = takeEntry e s := by
            cases n with
            | zero => rfl
            | succ n => rw [handOutLoop, if_neg htaken.not_idle]
          rw [hstop]
          exact .take hidle hfirst hbody hblocks htaken
        · have hshort := takeEntry_short hsplit hids hbody hblocks
          have hentries := hshort.2.1
          have hsub : (pre ++ post).Sublist s.queue.entries := by
            rw [hsplit]
            exact (List.Sublist.refl pre).append (List.sublist_cons_self e post)
          refine .short hidle hfirst hbody hblocks hshort (ih ?_ ?_ fun x hx => ?_)
          · rw [hentries]
            rw [hsplit] at hlen
            simp only [List.length_append, List.length_cons] at hlen ⊢
            omega
          · rw [hentries]
            exact hids.sublist (hsub.map Entry.id)
          · rw [hentries] at hx
            rw [hshort.state.2]
            exact hbodies x (hsub.subset hx)
      · rename_i hfind
        exact .nothing fun _ => noneEligible_of_find hfind
    · rename_i hidle
      exact .nothing fun h => absurd h hidle

/-- The hand-out gives the port as R110 says. -/
theorem handOut_handsOut {s : State} (hq : QueueLaw s) (hbodies : EntryLaw s) : HandsOut s (handOut s) :=
  handOutLoop_handsOut _ le_rfl hq.2.1 hbodies

/-- A hand-out that leaves the engine IDLE leaves no entry eligible. -/
theorem HandsOut.idle {s t : State} (h : HandsOut s t) : IdleLaw t := by
  induction h with
  | nothing h => exact h
  | take idle first body blocks taken => exact fun hidle => absurd hidle taken.not_idle
  | short idle first body blocks finished again ih => exact ih

/-! ### Stop orders (R17, R112, R113) -/

theorem stopRunning_of_runs {s : State} {run : Running} {e : Entry} (h : Runs s run e) (hstop : canStop s.engine.state = true) :
    stopRunning s = mergeTwins e.route e.kind (waitingState e.id (stopAcquisition s)) := by
  have hstops : stopsFor (e.running.getD 0) s = true := by
    rw [h.acq]
    simp [stopsFor, hstop]
  unfold stopRunning waitingState
  rw [h.found, stopAcquisition_queue]
  exact if_pos hstops

/-- A list in which one entry and its twin stand has no third WAITING test of their route and kind. -/
theorem filter_twins {pre mid post : List Entry} {a b : Entry} {p : Entry → Bool} (ha : p a = true) (hb : p b = true)
    (hpre : ∀ x ∈ pre, p x = false) (hmid : ∀ x ∈ mid, p x = false) (hpost : ∀ x ∈ post, p x = false) :
    (pre ++ a :: mid ++ b :: post).filter p = [a, b] := by
  have hnil : ∀ l : List Entry, (∀ x ∈ l, p x = false) → l.filter p = [] := fun l hl =>
    List.filter_eq_nil_iff.mpr fun x hx => by rw [hl x hx]; decide
  rw [List.filter_append, List.filter_append, List.filter_cons_of_pos ha, List.filter_cons_of_pos hb, hnil pre hpre,
    hnil mid hmid, hnil post hpost]
  rfl

theorem waiting_self {x : Entry} (h : x.running = none) : { x with running := none } = x := by
  rw [← h]

/-- No entry but its one twin waits for the route and kind of `e`. -/
theorem waitsFor_of_other {es : List Entry} (hno : NoTwins es) {e x : Entry} {i : Nat} (hi : TwinOf e es i) (hx : x ∈ es)
    (hxi : x.id ≠ i) : waitsFor e.route e.kind x = false := by
  rw [Bool.eq_false_iff]
  intro h
  obtain ⟨hw, hr, hk⟩ := waitsFor_iff.mp h
  exact hxi (TwinOf.unique hno ⟨x, hx, hw, rfl, hr, hk⟩ hi)

theorem stoppedEntries (id : Nat) (s : State) :
    (waitingState id (stopAcquisition s)).queue.entries = waitingEntries id s.queue.entries := by
  show waitingEntries id (stopAcquisition s).queue.entries = _
  rw [stopAcquisition_queue]

/-- The entries after the merge of two that stand in their places. -/
theorem absorbedEntries_split {pre mid post : List Entry} {a b : Entry}
    (hids : ((pre ++ a :: mid ++ b :: post).map Entry.id).Nodup) :
    absorbedEntries a b (pre ++ a :: mid ++ b :: post) = pre ++ absorbing a b :: mid ++ post := by
  have hidsA : ((pre ++ a :: (mid ++ b :: post)).map Entry.id).Nodup := by simpa using hids
  have hmap : ((pre ++ a :: mid ++ b :: post).map fun x => if x.id = a.id then absorbing a b else x)
      = (pre ++ absorbing a b :: mid) ++ b :: post := by
    rw [List.append_assoc, List.cons_append, map_at hidsA fun _ => absorbing a b]
    simp
  unfold absorbedEntries
  rw [hmap]
  refine filter_at (e := b) ?_
  simpa [absorbing] using hids

/-- The merge of the entry that waits again with its twin (R113). -/
theorem mergeTwins_of_twins {s : State} {pre mid post : List Entry} {a b e : Entry}
    (hsplit : s.queue.entries = pre ++ a :: mid ++ b :: post) (hok : EntriesOk s.queue.entries)
    (hno : NoTwins s.queue.entries) (hone : a = e ∧ isWaiting b = true ∨ b = e ∧ isWaiting a = true)
    (hroute : a.route = b.route) (hkind : a.kind = b.kind) :
    mergeTwins e.route e.kind (waitingState e.id (stopAcquisition s))
      = absorb { a with running := none } { b with running := none } (waitingState e.id (stopAcquisition s))
    ∧ waitingEntries e.id s.queue.entries
      = pre ++ { a with running := none } :: mid ++ { b with running := none } :: post := by
  have hids : (pre ++ a :: (mid ++ b :: post)).map Entry.id |>.Nodup := by
    have := hok.ids
    rw [hsplit] at this
    simpa using this
  have hids' : ((pre ++ a :: mid) ++ b :: post).map Entry.id |>.Nodup := by simpa using hids
  obtain ⟨hpreA, hrestA⟩ := ne_of_split hids
  obtain ⟨hpreB, hpostB⟩ := ne_of_split hids'
  have hab : a.id ≠ b.id := hpreB a (by simp)
  have hmemA : a ∈ s.queue.entries := by rw [hsplit]; simp
  have hmemB : b ∈ s.queue.entries := by rw [hsplit]; simp
  have hmid : ∀ x ∈ mid, x.id ≠ a.id ∧ x.id ≠ b.id := fun x hx => ⟨hrestA x (by simp [hx]), hpreB x (by simp [hx])⟩
  have hpre : ∀ x ∈ pre, x.id ≠ a.id ∧ x.id ≠ b.id := fun x hx => ⟨hpreA x hx, hpreB x (by simp [hx])⟩
  have hpost : ∀ x ∈ post, x.id ≠ a.id ∧ x.id ≠ b.id := fun x hx => ⟨hrestA x (by simp [hx]), hpostB x hx⟩
  have hentries : waitingEntries e.id s.queue.entries
      = pre ++ { a with running := none } :: mid ++ { b with running := none } :: post := by
    have hsame : ∀ l : List Entry, (∀ x ∈ l, x.id ≠ a.id ∧ x.id ≠ b.id) → waitingEntries e.id l = l := fun l hl =>
      map_at_of_ne fun x hx => by
        rcases hone with ⟨rfl, -⟩ | ⟨rfl, -⟩
        · exact (hl x hx).1
        · exact (hl x hx).2
    have happ : ∀ l m : List Entry, waitingEntries e.id (l ++ m) = waitingEntries e.id l ++ waitingEntries e.id m :=
      fun l m => List.map_append
    have hcons : ∀ x (l : List Entry), (x = e ∨ x.id ≠ e.id ∧ isWaiting x = true) →
        waitingEntries e.id (x :: l) = { x with running := none } :: waitingEntries e.id l := by
      rintro x l (rfl | ⟨hne, hw⟩)
      · exact congrArg (· :: waitingEntries x.id l) (if_pos rfl)
      · rw [waiting_self (isWaiting_iff.mp hw)]
        exact congrArg (· :: waitingEntries e.id l) (if_neg hne)
    rw [hsplit, happ, happ, hsame pre hpre, hcons a, hcons b, hsame mid hmid, hsame post hpost]
    · rcases hone with ⟨rfl, hw⟩ | ⟨rfl, -⟩
      · exact .inr ⟨fun h => hab h.symm, hw⟩
      · exact .inl rfl
    · rcases hone with ⟨rfl, -⟩ | ⟨rfl, hw⟩
      · exact .inl rfl
      · exact .inr ⟨hab, hw⟩
  refine ⟨?_, hentries⟩
  obtain ⟨i, hi, hother⟩ : ∃ i, TwinOf e s.queue.entries i ∧ ∀ x : Entry, x.id ≠ a.id ∧ x.id ≠ b.id → x.id ≠ i := by
    rcases hone with ⟨rfl, hw⟩ | ⟨rfl, hw⟩
    · exact ⟨b.id, ⟨b, hmemB, hw, rfl, hroute.symm, hkind.symm⟩, fun x hx => hx.2⟩
    · exact ⟨a.id, ⟨a, hmemA, hw, rfl, hroute, hkind⟩, fun x hx => hx.1⟩
  have hnone : ∀ l : List Entry, (∀ x ∈ l, x.id ≠ a.id ∧ x.id ≠ b.id) → (∀ x ∈ l, x ∈ s.queue.entries) →
      ∀ x ∈ l, waitsFor e.route e.kind x = false := fun l hl hmem x hx =>
    waitsFor_of_other hno hi (hmem x hx) (hother x (hl x hx))
  have hlabel : (a.route = e.route ∧ a.kind = e.kind) ∧ b.route = e.route ∧ b.kind = e.kind := by
    rcases hone with ⟨rfl, -⟩ | ⟨rfl, -⟩
    · exact ⟨⟨rfl, rfl⟩, hroute.symm, hkind.symm⟩
    · exact ⟨⟨hroute, hkind⟩, rfl, rfl⟩
  have hfilter : (waitingState e.id (stopAcquisition s)).queue.entries.filter (waitsFor e.route e.kind)
      = [{ a with running := none }, { b with running := none }] := by
    rw [stoppedEntries, hentries]
    exact filter_twins (waitsFor_iff.mpr ⟨rfl, hlabel.1⟩) (waitsFor_iff.mpr ⟨rfl, hlabel.2⟩)
      (hnone pre hpre fun x hx => by rw [hsplit]; simp [hx]) (hnone mid hmid fun x hx => by rw [hsplit]; simp [hx])
      (hnone post hpost fun x hx => by rw [hsplit]; simp [hx])
  rcases mergeTwins_cases e.route e.kind (waitingState e.id (stopAcquisition s)) with ⟨hle, -⟩ | ⟨x, y, rest, hxy, k⟩
  · have hlen : [{ a with running := none }, { b with running := none }].length ≤ 1 := hfilter ▸ hle
    exact absurd hlen (Nat.not_succ_le_self 1)
  · have := hfilter.symm.trans hxy
    simp only [List.cons.injEq] at this
    rw [k, this.1, this.2.1]

/-- A merge changes the queue alone, and its counter not. -/
theorem mergeTwins_eq_queue (r : RouteNo) (k : TestKind) (s : State) :
    mergeTwins r k s = { s with queue := (mergeTwins r k s).queue } := by
  rcases mergeTwins_eq r k s with h | ⟨a, b, rest, -, h⟩
  · rw [h]
  · rw [h]
    rfl

theorem mergeTwins_counter (r : RouteNo) (k : TestKind) (s : State) : (mergeTwins r k s).queue.counter = s.queue.counter := by
  rcases mergeTwins_eq r k s with h | ⟨a, b, rest, -, h⟩
  · rw [h]
  · rw [h]
    rfl

theorem stopAcquisition_eq (s : State) :
    stopAcquisition s = { s with
      front := { s.front with laser := false, checking := false }, engine := engineFree .idle none s.engine
      store := (stopAcquisition s).store } := by
  unfold stopAcquisition
  rcases returnReservation_eq (frontOff s) with h | ⟨r, -, -, h⟩ <;> rw [h] <;> rfl

theorem stopAcquisition_returned (s : State) : ReservationReturned s (stopAcquisition s) :=
  returnReservation_returned (frontOff s)

/-- A stop order gives up the RUNNING entry in the states in which it can be stopped (R17, R112, R113). -/
theorem stopRunning_givenUp {s : State} (hq : QueueLaw s) {run : Running} {e : Entry} (h : Runs s run e)
    (hstop : canStop s.engine.state = true) : GivenUp e s (stopRunning s) := by
  obtain ⟨hok, hno, -⟩ := queueLaw_iff.mp hq
  have hwaits := stoppedEntries e.id s
  have hmarks : (waitingState e.id (stopAcquisition s)).queue.marks = s.queue.marks := by
    show (stopAcquisition s).queue.marks = _
    rw [stopAcquisition_queue]
  have hcounter : (mergeTwins e.route e.kind (waitingState e.id (stopAcquisition s))).queue.counter = s.queue.counter := by
    rw [mergeTwins_counter]
    show (stopAcquisition s).queue.counter = _
    rw [stopAcquisition_queue]
  have hstore : (mergeTwins e.route e.kind (waitingState e.id (stopAcquisition s))).store = (stopAcquisition s).store :=
    (mergeTwins_queueOnly e.route e.kind _).store
  rw [stopRunning_of_runs h hstop]
  refine ⟨?_, ?_, hcounter, fun hnone => ?_, fun pre a mid b post hsplit hone hroute hkind => ?_⟩
  · rw [hstore]
    exact (mergeTwins_eq_queue e.route e.kind (waitingState e.id (stopAcquisition s))).trans
      (congrArg (fun u : State => { u with
        queue := (mergeTwins e.route e.kind (waitingState e.id (stopAcquisition s))).queue }) (stopAcquisition_eq s))
  · unfold ReservationReturned
    rw [hstore]
    exact stopAcquisition_returned s
  · have hone : mergeTwins e.route e.kind (waitingState e.id (stopAcquisition s)) = waitingState e.id (stopAcquisition s) := by
      rcases mergeTwins_cases e.route e.kind (waitingState e.id (stopAcquisition s)) with ⟨-, k⟩ | ⟨a, b, rest, hab, -⟩
      · exact k
      · rw [hwaits] at hab
        obtain ⟨ha, hb, hwa, hwb, hne, -⟩ := filter_head_two (hok.map (keepsPlaces_running e.id none _)) hab
        obtain ⟨hwa, har, hak⟩ := waitsFor_iff.mp hwa
        obtain ⟨hwb, hbr, hbk⟩ := waitsFor_iff.mp hwb
        obtain ⟨-, -, ⟨-, x, hx, hw, -, hr, hk⟩ | ⟨-, x, hx, hw, -, hr, hk⟩⟩ := twins_of_waitingEntries hok hno h.mem ha hb
          ⟨hwa, hwb, har.trans hbr.symm, hak.trans hbk.symm⟩ hne
        · exact absurd ⟨hr, hk⟩ (hnone x hx hw)
        · exact absurd ⟨hr, hk⟩ (hnone x hx hw)
    rw [hone]
    exact ⟨hwaits.trans (replaced_eq hok h.mem fun x => { x with running := none }).symm, hmarks⟩
  · obtain ⟨hmerge, hentries⟩ := mergeTwins_of_twins hsplit hok hno hone hroute hkind
    have hlabel : a.route = e.route ∧ a.kind = e.kind := by
      rcases hone with ⟨rfl, -⟩ | ⟨rfl, -⟩
      · exact ⟨rfl, rfl⟩
      · exact ⟨hroute, hkind⟩
    rw [hmerge]
    refine ⟨?_, ?_⟩
    · have hids := (hok.map (keepsPlaces_running e.id none s.queue.entries)).ids
      have hids' : ((waitingEntries e.id s.queue.entries).map Entry.id).Nodup := hids
      rw [hentries] at hids'
      show absorbedEntries _ _ (waitingState e.id (stopAcquisition s)).queue.entries = _
      rw [hwaits, hentries, absorbedEntries_split hids', ← hlabel.1, ← hlabel.2]
      rfl
    · rw [← hmarks]
      rfl

end Sys2Proof.Machine
end

section
/-!
No entry of an UNUSED route, at most one RUNNING entry: what the small changes and the stop orders keep of them; and the giving
of the port whole (R110 to R116).
-/
namespace Sys2Proof.Machine

theorem queueLaw_cardStable : CardStable QueueLaw := by
  have h : QueueLaw = QueueOk False := funext fun s => propext (by simp [queueOk_iff])
  rw [h]
  exact queueOk_cardStable False

/-! ### No entry of an UNUSED route (R73, R74, R105) -/

theorem EntryLaw.of_routes {s t : State} (h : EntryLaw s) (hroutes : t.routes = s.routes)
    (hsub : ∀ x ∈ t.queue.entries, ∃ y ∈ s.queue.entries, x.route = y.route) : EntryLaw t := by
  intro x hx
  obtain ⟨y, hy, hxy⟩ := hsub x hx
  have hbody : ∀ r, r = y.route → t.routes[r].body ≠ none := by
    rintro _ rfl
    rw [hroutes]
    exact h y hy
  exact hbody _ hxy

theorem EntryLaw.of_eq {s t : State} (h : EntryLaw s) (hroutes : t.routes = s.routes) (hq : t.queue = s.queue) : EntryLaw t :=
  h.of_routes hroutes fun x hx => ⟨x, hq ▸ hx, rfl⟩

/-- The entries of `t` are those of `s` but for changes that leave each its route. -/
theorem EntryLaw.of_map {s t : State} (h : EntryLaw s) (hroutes : t.routes = s.routes) {f : Entry → Entry}
    (hf : ∀ x ∈ s.queue.entries, (f x).route = x.route) (hentries : t.queue.entries = s.queue.entries.map f) : EntryLaw t :=
  h.of_routes hroutes fun x hx => by
    obtain ⟨y, hy, rfl⟩ := List.mem_map.mp (hentries ▸ hx)
    exact ⟨y, hy, hf y hy⟩

theorem EntryLaw.left {s : State} (h : EntryLaw s) (e : Entry) (out : TestOutcome) (reqs : RequesterSet) (c : Option Client) :
    EntryLaw (leaveQueue e out reqs c s) :=
  h.of_routes (leaveQueue_queueOnly e out reqs c s).routes fun x hx => by
    rw [(leaveQueue_queue e out reqs c s).1] at hx
    exact ⟨x, (List.mem_filter.mp hx).1, rfl⟩

theorem mem_of_filter_eq_cons {α : Type} {l : List α} {p : α → Bool} {a : α} {rest : List α} (h : l.filter p = a :: rest) :
    a ∈ l :=
  List.mem_of_mem_filter (h.symm ▸ List.mem_cons_self)

/-- The entries after a stop order are those before it, but for one that a merge may have removed. -/
theorem mem_stopRunning {s : State} {x : Entry} (hx : x ∈ (stopRunning s).queue.entries) :
    ∃ y ∈ s.queue.entries, x.route = y.route := by
  have hwaiting : ∀ id, ∀ y ∈ (waitingState id (stopAcquisition s)).queue.entries,
      ∃ z ∈ s.queue.entries, y.route = z.route := fun id y hy => by
    rw [stoppedEntries] at hy
    obtain ⟨z, hz, -, hr, -⟩ := mem_waitingEntries hy
    exact ⟨z, hz, hr⟩
  rcases stopRunning_cases s with h | ⟨e, -, -, h⟩ <;> rw [h] at hx
  · exact ⟨x, hx, rfl⟩
  · rcases mergeTwins_cases e.route e.kind (waitingState e.id (stopAcquisition s)) with ⟨-, k⟩ | ⟨a, b, rest, hab, k⟩ <;>
      rw [k] at hx
    · exact hwaiting e.id x hx
    · have ha := mem_of_filter_eq_cons hab
      obtain ⟨-, y, hy, rfl⟩ := mem_absorbedEntries hx
      split
      · exact hwaiting e.id a ha
      · exact hwaiting e.id y hy

theorem mem_removed {es : List Entry} {out : TestOutcome} {s : State} {x : Entry}
    (hx : x ∈ (es.foldl (fun s e => leaveQueue e out e.reqs none s) s).queue.entries) :
    x ∈ s.queue.entries ∧ ∀ e ∈ es, x.id ≠ e.id := by
  induction es generalizing s with
  | nil => exact ⟨hx, by simp⟩
  | cons e es ih =>
    rw [List.foldl_cons] at hx
    obtain ⟨hmem, hne⟩ := ih hx
    rw [(leaveQueue_queue e out e.reqs none s).1] at hmem
    obtain ⟨hmem, hid⟩ := List.mem_filter.mp hmem
    exact ⟨hmem, List.forall_mem_cons.mpr ⟨bne_iff_ne.mp hid, hne⟩⟩

theorem routeRunning_eq_false_iff {s : State} {r : RouteNo} :
    routeRunning s r = false ↔ ∀ e ∈ s.queue.entries, e.route = r → isWaiting e = true := by
  simp only [routeRunning, List.any_eq_false, Bool.and_eq_true, decide_eq_true_eq, not_and', Bool.not_eq_true, isWaiting]
  refine forall₂_congr fun e _ => ?_
  cases e.running <;> simp

/-- With no RUNNING entry of the route, the removal of the WAITING ones leaves none (R74, R120). -/
theorem not_mem_removeWaiting {s : State} {r : RouteNo} (hfree : routeRunning s r = false) {x : Entry}
    (hx : x ∈ (removeWaiting r s).queue.entries) : x ∈ s.queue.entries ∧ x.route ≠ r := by
  obtain ⟨hmem, hne⟩ := mem_removed hx
  refine ⟨hmem, fun hr => hne x (List.mem_filter.mpr ⟨hmem, ?_⟩) rfl⟩
  simp [routeRunning_eq_false_iff.mp hfree x hmem hr, hr]

theorem EntryLaw.deleted {s : State} (h : EntryLaw s) (c : Client) {r : RouteNo} (hfree : routeRunning s r = false) :
    EntryLaw (acceptDeletion c r s) := by
  intro x hx
  rw [(acceptDeletion_finishOnly c r s).routes]
  rw [acceptDeletion_eq] at hx
  have hqueue : ∀ u : State, (setUnknown r c u).queue = u.queue := fun u => by
    rcases setUnknown_cases r c u with ⟨-, k⟩ | ⟨-, k⟩ <;> rw [k] <;> rfl
  have hsame : (setUnknown r c (logWrite (.routeChange r c .deleted) (freeBlocks (baselineBlocks s.routes[r])
      (setRecord r none (setRoute r (deletedEntry s.routes[r]) s))))).queue = s.queue := (hqueue _).trans rfl
  have hfree' : routeRunning (setUnknown r c (logWrite (.routeChange r c .deleted) (freeBlocks (baselineBlocks s.routes[r])
      (setRecord r none (setRoute r (deletedEntry s.routes[r]) s))))) r = false := by
    unfold routeRunning at hfree ⊢
    rw [hsame]
    exact hfree
  obtain ⟨hmem, hne⟩ := not_mem_removeWaiting hfree' hx
  rw [hsame] at hmem
  show (s.routes.set r (deletedEntry s.routes[r]))[x.route].body ≠ none
  rw [getFin_set, if_neg hne.symm]
  exact h x hmem

theorem entryLaw_cardStable : CardStable EntryLaw where
  frame h _ _ hq hr := h.of_eq hr hq
  log _ _ h := h.of_eq rfl rfl
  raise _ _ _ _ h := h.of_eq rfl rfl
  leave e out reqs c _ h := h.left e out reqs c
  runs id acq s h := h.of_map rfl (keepsPlaces_running id (some acq) s.queue.entries).route rfl
  stopped s h := h.of_routes (stopRunning_portOnly s).routes fun _ => mem_stopRunning
  joined who e s _ he h := h.of_routes rfl fun x hx => by
    obtain ⟨y, hy, rfl⟩ := List.mem_map.mp hx
    split
    · exact ⟨e, he, rfl⟩
    · exact ⟨y, hy, rfl⟩
  upgraded who e s _ he h := h.of_routes rfl fun x hx => by
    rcases (mem_placeEntry (e := upgradedEntry who e)).mp hx with rfl | hx
    · exact ⟨e, he, rfl⟩
    · exact ⟨x, (List.mem_filter.mp hx).1, rfl⟩
  placed who r k cls s _ hb _ _ h := fun x hx => by
    rcases mem_placeEntry.mp hx with rfl | hx
    · exact hb
    · exact h x hx
  withdrawn c e s he hleft h := by
    refine h.of_map (f := fun x => if x.id = e.id then { x with reqs := del e.reqs (bitOf c) } else x)
      ((dropFromMarks_queueOnly _ _ _).routes.trans rfl) (keepsPlaces_reqs e.id hleft s.queue.entries).route
      (dropFromMarks_queue _ _ _).1
  opened _ _ _ _ h := h.of_routes rfl fun x hx => ⟨x, hx, rfl⟩
  switches _ _ _ _ _ _ _ h := h.of_eq rfl rfl
  cleared _ _ _ h := h.of_eq rfl rfl
  read _ _ h := h.of_eq rfl rfl
  pulse _ _ h := h.of_eq rfl rfl
  reset s _ _ hq := fun x hx => by
    rw [hq] at hx
    cases hx
  routed r e s he h := fun x hx => by
    show (s.routes.set r e)[x.route].body ≠ none
    rw [getFin_set]
    split
    · rename_i hrx
      exact fun hn => h x hx (hrx ▸ he hn)
    · exact h x hx
  deletes c _ _ hfree h := h.deleted c hfree

/-! ### At most one RUNNING entry (R103) -/

theorem RunLaw.of_eq {s t : State} (h : RunLaw s) (he : t.engine = s.engine) (hq : t.queue.entries = s.queue.entries) :
    RunLaw t := by
  unfold RunLaw
  rw [he, hq]
  exact h

theorem allWaiting_stopped {s : State} {run : Running} {e : Entry} (h : Runs s run e)
    (hstop : canStop s.engine.state = true) : AllWaiting (stopRunning s) := by
  have hwaits : ∀ x ∈ (waitingState e.id (stopAcquisition s)).queue.entries, isWaiting x = true := fun x hx => by
    rw [stoppedEntries] at hx
    obtain ⟨y, hy, rfl⟩ := List.mem_map.mp hx
    by_cases hid : y.id = e.id
    · rw [if_pos hid]
      rfl
    · rw [if_neg hid]
      by_contra hw
      exact hid (congrArg Entry.id (h.only y hy (Bool.eq_false_iff.mpr hw)))
  rw [stopRunning_of_runs h hstop]
  intro x hx
  rcases mergeTwins_cases e.route e.kind (waitingState e.id (stopAcquisition s)) with ⟨-, k⟩ | ⟨a, b, rest, hab, k⟩ <;>
    rw [k] at hx
  · exact hwaits x hx
  · have ha := mem_of_filter_eq_cons hab
    obtain ⟨-, y, hy, rfl⟩ := mem_absorbedEntries hx
    split
    · exact hwaits a ha
    · exact hwaits y hy

theorem stopRunning_engine {s : State} {run : Running} {e : Entry} (h : Runs s run e)
    (hstop : canStop s.engine.state = true) :
    (stopRunning s).engine = s.engine.freed .idle
      ∧ (stopRunning s).front = { s.front with laser := false, checking := false } := by
  rw [stopRunning_of_runs h hstop]
  exact ⟨(mergeTwins_queueOnly _ _ _).engine.trans (stopAcquisition_engine s),
    (mergeTwins_queueOnly _ _ _).front.trans (stopAcquisition_front s)⟩

theorem RunLaw.stopped {s : State} (h : RunLaw s) : RunLaw (stopRunning s) := by
  cases hstop : canStop s.engine.state with
  | false => exact (stopRunning_of_fixed hstop).symm ▸ h
  | true =>
    obtain ⟨run, e, hruns⟩ := h.runs (busy_of_canStop hstop)
    have hengine := (stopRunning_engine hruns hstop).1
    exact runLaw_of_waiting (by rw [hengine]; rfl) (by rw [hengine]; rfl) (allWaiting_stopped hruns hstop)

/-! ### Giving the port (R110 to R116) -/

/-- A stop order sent to the RUNNING entry where it meets `c`. -/
theorem stopOrder_of {s t : State} (hq : QueueLaw s) (hrun : RunLaw s) {c : Entry → Prop}
    (hsome : ∀ e, runningEntry s = some e → (c e → t = stopRunning s) ∧ (¬c e → t = s))
    (hnone : runningEntry s = none → t = s) : StopOrder c s t := by
  refine ⟨fun e he hw hstop hc => ?_, fun hno => ?_⟩
  · obtain ⟨run, hruns⟩ := hrun.runs_of_mem he hw
    rw [(hsome e hruns.found).1 hc]
    exact stopRunning_givenUp hq hruns hstop
  · cases he : runningEntry s with
    | none => exact hnone he
    | some e =>
      by_cases hc : c e
      · rw [(hsome e he).1 hc]
        refine stopRunning_of_fixed (Bool.eq_false_iff.mpr fun hstop => ?_)
        have hw : isWaiting e = false := by
          have := List.find?_some he
          simpa [isWaiting] using this
        exact hno e (List.mem_of_find?_eq_some he) hw hstop hc
      · exact (hsome e he).2 hc

theorem urgentWaits_iff {s : State} :
    urgentWaits s = true ↔ ∃ x ∈ s.queue.entries, x.cls = .urgent ∧ isEligible s x = true := by
  simp [urgentWaits]

theorem preempt_stopOrder {s : State} (hq : QueueLaw s) (hrun : RunLaw s) : StopOrder (Preempted s) s (preempt s) := by
  refine stopOrder_of hq hrun (fun e he => ?_) fun he => ?_
  · simp only [preempt, he, Preempted, ← urgentWaits_iff]
    exact ⟨fun hc => if_pos hc, fun hc => if_neg hc⟩
  · simp only [preempt, he]

/-- The stop order of a coverage report (R115). -/
def coverageStop (s : State) : State :=
  match runningEntry s with
  | some e => if e.cls = .routine ∧ !isCovered s e.route then stopRunning s else s
  | none => s

/-- The stop order of a report of the Route Table (R116). -/
def routeStop (was : RouteNo → Bool) (s : State) : State :=
  match runningEntry s with
  | some e => if isClosed s e.route && !was e.route then stopRunning s else s
  | none => s

theorem coverageReport_eq (s : State) : coverageReport s = handOut (coverageStop s) := rfl

theorem routeReport_eq (was : RouteNo → Bool) (s : State) : routeReport was s = arbitrate (routeStop was s) := rfl

theorem coverageStop_stopOrder {s : State} (hq : QueueLaw s) (hrun : RunLaw s) :
    StopOrder (Uncovered s) s (coverageStop s) := by
  refine stopOrder_of hq hrun (fun e he => ?_) fun he => ?_
  · simp only [coverageStop, he, Uncovered, Bool.not_eq_true']
    exact ⟨fun hc => if_pos hc, fun hc => if_neg hc⟩
  · simp only [coverageStop, he]

theorem routeStop_stopOrder (was : RouteNo → Bool) {s : State} (hq : QueueLaw s) (hrun : RunLaw s) :
    StopOrder (JustClosed was s) s (routeStop was s) := by
  refine stopOrder_of hq hrun (fun e he => ?_) fun he => ?_
  · simp only [routeStop, he, JustClosed, Bool.and_eq_true, Bool.not_eq_true']
    exact ⟨fun hc => if_pos hc, fun hc => if_neg hc⟩
  · simp only [routeStop, he]

section
variable {P : State → Prop} (hs : ∀ s, P s → P (stopRunning s)) {s : State}
include hs

theorem coverageStop_keeps (h : P s) : P (coverageStop s) := by
  unfold coverageStop
  split
  · split
    · exact hs s h
    · exact h
  · exact h

theorem routeStop_keeps (was : RouteNo → Bool) (h : P s) : P (routeStop was s) := by
  unfold routeStop
  split
  · split
    · exact hs s h
    · exact h
  · exact h

end

/-! ### The words of R80, R82, R109 and R150 -/

theorem inBarred_iff {range : Option (Nat × Nat)} {r : RouteNo} :
    inBarred range r = true ↔ ∃ first last, range = some (first, last) ∧ first ≤ r.val ∧ r.val ≤ last := by
  cases range with
  | none => simp [inBarred]
  | some p =>
    obtain ⟨lo, hi⟩ := p
    simp only [inBarred, Bool.and_eq_true, decide_eq_true_eq, Option.some.injEq, Prod.mk.injEq]
    constructor
    · rintro ⟨h1, h2⟩
      exact ⟨lo, hi, ⟨rfl, rfl⟩, h1, h2⟩
    · rintro ⟨_, _, ⟨rfl, rfl⟩, h1, h2⟩
      exact ⟨h1, h2⟩

theorem isClosed_iff {s : State} {r : RouteNo} :
    isClosed s r = true ↔ s.routes[r].holds ≠ 0
      ∨ ∃ first last, s.device.barred = some (first, last) ∧ first ≤ r.val ∧ r.val ≤ last := by
  rw [← inBarred_iff]
  simp [isClosed, isHeld, isBarred]

theorem isCovered_iff {s : State} {r : RouteNo} :
    isCovered s r = true
      ↔ ∃ w : WindowNo, s.windows[w].remaining ≠ none ∧ s.windows[w].settings.routes.getLsbD r = true := by
  unfold isCovered has
  simp only [List.any_eq_true, Bool.and_eq_true, Vector.mem_toList_iff, Vector.mem_iff_getElem, Option.isSome_iff_ne_none]
  constructor
  · rintro ⟨_, ⟨i, hi, rfl⟩, hw⟩
    exact ⟨⟨i, hi⟩, hw⟩
  · rintro ⟨⟨i, hi⟩, hw⟩
    exact ⟨_, ⟨i, hi, rfl⟩, hw⟩

theorem mayRun_iff {s : State} {r : RouteNo} {cls : TestClass} :
    mayRun s r cls = true ↔ isClosed s r = false ∧ (cls = .urgent ∨ isCovered s r = true) := by
  simp [mayRun]

theorem isEligible_iff {s : State} {e : Entry} :
    isEligible s e = true ↔ e.running = none ∧ s.routes[e.route].holds = 0
      ∧ (∀ first last, s.device.barred = some (first, last) → ¬(first ≤ e.route.val ∧ e.route.val ≤ last))
      ∧ (e.cls = .urgent
        ∨ ∃ w : WindowNo, s.windows[w].remaining ≠ none ∧ s.windows[w].settings.routes.getLsbD e.route = true) := by
  have hopen : isClosed s e.route = false ↔ s.routes[e.route].holds = 0
      ∧ ∀ first last, s.device.barred = some (first, last) → ¬(first ≤ e.route.val ∧ e.route.val ≤ last) := by
    rw [← Bool.not_eq_true, isClosed_iff]
    push Not
    rfl
  unfold isEligible
  rw [Bool.and_eq_true, isWaiting_iff, mayRun_iff, hopen, isCovered_iff, and_assoc]

theorem canStop_iff {st : EngineState} : canStop st = true ↔ st = .switching ∨ st = .liveCheck ∨ st = .firing := by
  cases st <;> simp [canStop]

/-- Settles O27: the hand-out is a run of takes of first eligible entries, and each report sends its stop order first. -/
theorem thePortIsGiven : Obligations.ThePortIsGiven := by
  refine ⟨fun _ _ => inBarred_iff, fun s r => ⟨isClosed_iff, isCovered_iff, fun _ => mayRun_iff⟩,
    fun s e => ⟨isWaiting_iff, isEligible_iff⟩, fun _ => canStop_iff, fun s hq hrun he => ⟨handOut_handsOut hq he, ?_, ?_, ?_⟩⟩
  · exact ⟨preempt s, preempt_stopOrder hq hrun, handOut_handsOut (preempt_keeps queueLaw_cardStable.stopped s hq)
      (preempt_keeps entryLaw_cardStable.stopped s he)⟩
  · exact ⟨coverageStop s, coverageStop_stopOrder hq hrun,
      handOut_handsOut (coverageStop_keeps queueLaw_cardStable.stopped hq) (coverageStop_keeps entryLaw_cardStable.stopped he)⟩
  · intro closed
    have hq' := routeStop_keeps queueLaw_cardStable.stopped closed hq
    have he' := routeStop_keeps entryLaw_cardStable.stopped closed he
    have hrun' := routeStop_keeps (fun _ h => h.stopped) closed hrun
    exact ⟨routeStop closed s, preempt (routeStop closed s), routeStop_stopOrder closed hq hrun, preempt_stopOrder hq' hrun',
      handOut_handsOut (preempt_keeps queueLaw_cardStable.stopped _ hq') (preempt_keeps entryLaw_cardStable.stopped _ he')⟩

end Sys2Proof.Machine
end

section
/-!
The laser and the RUNNING entry (R4, R103): the engine's part of the law, and the part that a report restores.
-/
namespace Sys2Proof.Machine

/-! ### The RUNNING entry through changes of the queue -/

/-- The RUNNING entries of the list. -/
def runningOf (es : List Entry) : List Entry := es.filter fun x => !isWaiting x

theorem allWaiting_iff {s : State} : AllWaiting s ↔ runningOf s.queue.entries = [] := by
  simp [AllWaiting, runningOf, List.filter_eq_nil_iff]

/-- A change of the queue that leaves the RUNNING entries as they are. -/
theorem RunLaw.of_running {s t : State} (h : RunLaw s) (he : t.engine = s.engine)
    (hrun : runningOf t.queue.entries = runningOf s.queue.entries) : RunLaw t := by
  obtain ⟨hbusy, hfree⟩ := h
  refine ⟨fun hb => ?_, fun hb => ?_⟩ <;> rw [he] at hb ⊢
  · obtain ⟨run, e, hr, hone, hrest⟩ := hbusy hb
    exact ⟨run, e, hr, hrun.trans hone, hrest⟩
  · obtain ⟨hr, hall⟩ := hfree hb
    exact ⟨hr, allWaiting_iff.mpr (hrun.trans (allWaiting_iff.mp hall))⟩

theorem runningOf_append (es fs : List Entry) : runningOf (es ++ fs) = runningOf es ++ runningOf fs := List.filter_append ..

theorem runningOf_cons {e : Entry} (h : isWaiting e = false) (es : List Entry) : runningOf (e :: es) = e :: runningOf es :=
  List.filter_cons_of_pos (by simp [h])

theorem runningOf_placeEntry {e : Entry} (h : isWaiting e = true) (es : List Entry) :
    runningOf (placeEntry e es) = runningOf es := by
  have hcons : ∀ l, runningOf (e :: l) = runningOf l := fun l => List.filter_cons_of_neg (by simp [h])
  unfold placeEntry
  split
  · rw [runningOf_append, hcons, ← runningOf_append, List.takeWhile_append_dropWhile]
  · rw [runningOf_append, hcons]
    exact List.append_nil _

/-- The removal of entries that are WAITING leaves the RUNNING ones. -/
theorem runningOf_filter {es : List Entry} {p : Entry → Bool} (h : ∀ x ∈ es, isWaiting x = false → p x = true) :
    runningOf (es.filter p) = runningOf es := by
  unfold runningOf
  rw [List.filter_filter]
  refine List.filter_congr fun x hx => ?_
  cases hw : isWaiting x with
  | true => rfl
  | false => rw [h x hx hw]; rfl

/-- A change of WAITING entries leaves the RUNNING ones. -/
theorem runningOf_map {es : List Entry} {f : Entry → Entry}
    (h : ∀ x ∈ es, isWaiting (f x) = isWaiting x ∧ (isWaiting x = false → f x = x)) :
    runningOf (es.map f) = runningOf es := by
  induction es with
  | nil => rfl
  | cons x es ih =>
    have ih := ih fun y hy => h y (List.mem_cons_of_mem _ hy)
    obtain ⟨hw, hsame⟩ := h x List.mem_cons_self
    unfold runningOf at ih ⊢
    rw [List.map_cons]
    cases hx : isWaiting x with
    | true => rw [List.filter_cons_of_neg (by simp [hw, hx]), List.filter_cons_of_neg (by simp [hx]), ih]
    | false => rw [List.filter_cons_of_pos (by simp [hw, hx]), List.filter_cons_of_pos (by simp [hx]), ih, hsame hx]

/-- The withdrawal of a request changes no RUNNING entry but in its requesters. -/
theorem RunLaw.of_reqs {s t : State} (h : RunLaw s) (he : t.engine = s.engine) (id : Nat) (reqs : RequesterSet)
    (hentries : t.queue.entries = s.queue.entries.map fun x => if x.id = id then { x with reqs := reqs } else x) : RunLaw t := by
  have hlabel : ∀ x : Entry, ∀ y, y = (if x.id = id then { x with reqs := reqs } else x) →
      y.id = x.id ∧ y.route = x.route ∧ y.kind = x.kind ∧ y.cls = x.cls ∧ y.running = x.running := by
    rintro x y rfl
    split <;> exact ⟨rfl, rfl, rfl, rfl, rfl⟩
  have hmap : runningOf t.queue.entries
      = (runningOf s.queue.entries).map fun x => if x.id = id then { x with reqs := reqs } else x := by
    rw [hentries]
    unfold runningOf
    rw [List.filter_map]
    refine congrArg _ (List.filter_congr fun x _ => ?_)
    obtain ⟨-, -, -, -, hrunning⟩ := hlabel x _ rfl
    rw [Function.comp_apply, isWaiting, isWaiting, hrunning]
  obtain ⟨hbusy, hfree⟩ := h
  refine ⟨fun hb => ?_, fun hb => ?_⟩ <;> rw [he] at hb ⊢
  · obtain ⟨run, e, hr, hone, hid, hroute, hkind, hcls, hacq⟩ := hbusy hb
    obtain ⟨lid, lroute, lkind, lcls, lrun⟩ := hlabel e _ rfl
    exact ⟨run, _, hr, hmap.trans (congrArg _ hone), lid.trans hid, lroute.trans hroute, lkind.trans hkind, lcls.trans hcls,
      lrun.trans hacq⟩
  · obtain ⟨hr, hall⟩ := hfree hb
    refine ⟨hr, allWaiting_iff.mpr (hmap.trans ?_)⟩
    rw [allWaiting_iff.mp hall]
    rfl

theorem runningOf_joined {s : State} (hq : QueueLaw s) {e : Entry} (he : e ∈ s.queue.entries) (hw : isWaiting e = true)
    (who : Nat) : runningOf (joinedState who e s).queue.entries = runningOf s.queue.entries := by
  refine runningOf_map fun x hx => ?_
  by_cases hid : x.id = e.id
  · have hxe : x = e := (queueLaw_iff.mp hq).1.eq_of_id hx he hid
    rw [if_pos hid, hxe]
    exact ⟨rfl, fun hf => absurd hw (by rw [hf]; decide)⟩
  · rw [if_neg hid]
    exact ⟨rfl, fun _ => rfl⟩

theorem runningOf_upgraded {s : State} (hq : QueueLaw s) {e : Entry} (he : e ∈ s.queue.entries) (hw : isWaiting e = true)
    (who : Nat) : runningOf (upgradedState who e s).queue.entries = runningOf s.queue.entries := by
  refine (runningOf_placeEntry (e := upgradedEntry who e) hw _).trans (runningOf_filter fun x hx hr => ?_)
  refine bne_iff_ne.mpr fun hid => ?_
  rw [(queueLaw_iff.mp hq).1.eq_of_id hx he hid, hw] at hr
  cases hr

theorem runningOf_placed (id who : Nat) (r : RouteNo) (k : TestKind) (cls : TestClass) (s : State) :
    runningOf (placedState id who r k cls s).queue.entries = runningOf s.queue.entries :=
  runningOf_placeEntry (e := freshEntry id who r k cls) rfl _

/-- The queue of a TEST while the engine is fixed: the RUNNING entries stay. -/
theorem runningOf_askTest_of_fixed (who : Nat) (r : RouteNo) (k : TestKind) (cls : TestClass) {s : State} (hq : QueueLaw s)
    (h : EngineFixed s) : runningOf (askTest who r k cls s).2.queue.entries = runningOf s.queue.entries := by
  rcases askTest_of_fixed_cases who r k cls h with h' | ⟨e, he, hw, -, -, ⟨-, h'⟩ | ⟨-, h'⟩⟩ | h' <;> rw [h']
  · exact runningOf_upgraded hq he hw who
  · exact runningOf_joined hq he hw who
  · exact runningOf_placed ..

theorem runningOf_takeFinding_of_fixed (f : Finding) {s : State} (hq : QueueLaw s) (h : EngineFixed s) :
    runningOf (takeFinding f s).queue.entries = runningOf s.queue.entries := by
  rcases takeFinding_cases f s with k | ⟨b, -, -, ⟨-, k⟩ | ⟨-, -, k⟩ | ⟨-, -, k⟩⟩ <;> rw [k]
  · rfl
  · rfl
  · have hcand (k : Option Candidate) : QueueLaw (setCand f.route k s) := hq
    have hfixed (k : Option Candidate) : EngineFixed (setCand f.route k s) := h
    exact runningOf_askTest_of_fixed _ _ _ _ (hcand _) (hfixed _)

/-! ### What the laws look at -/

/-- Nothing that the opening of a route to the test depends on has changed (R82, R150). -/
structure SameOpen (s t : State) : Prop where
  closed : ∀ r, isClosed t r = isClosed s r
  covered : ∀ r, isCovered t r = isCovered s r

theorem SameOpen.refl (s : State) : SameOpen s s := ⟨fun _ => rfl, fun _ => rfl⟩

theorem SameOpen.trans {s t u : State} (h : SameOpen s t) (k : SameOpen t u) : SameOpen s u :=
  ⟨fun r => (k.closed r).trans (h.closed r), fun r => (k.covered r).trans (h.covered r)⟩

theorem sameOpen_of_eq {s t : State} (hr : t.routes = s.routes) (hd : t.device = s.device) (hw : t.windows = s.windows) :
    SameOpen s t := by
  constructor <;> intro r
  · unfold isClosed isHeld isBarred
    rw [hr, hd]
  · unfold isCovered
    rw [hw]

theorem FinishOnly.sameOpen {s t : State} (h : FinishOnly s t) : SameOpen s t :=
  sameOpen_of_eq h.routes h.device h.windows

theorem PortOnly.sameOpen {s t : State} (h : PortOnly s t) : SameOpen s t := h.finish.sameOpen

theorem SameOpen.mayRun {s t : State} (h : SameOpen s t) (r : RouteNo) (cls : TestClass) :
    mayRun t r cls = mayRun s r cls := by
  unfold Machine.mayRun
  rw [h.closed, h.covered]

theorem SameOpen.isEligible {s t : State} (h : SameOpen s t) (e : Entry) : isEligible t e = isEligible s e := by
  unfold Machine.isEligible
  rw [h.mayRun]

theorem QueueLaw.of_eq {s t : State} (h : QueueLaw s) (hq : t.queue = s.queue) : QueueLaw t := by
  unfold QueueLaw
  rw [hq]
  exact h

/-- What a change outside the port and the queue leaves as it is. -/
structure TestsStand (s t : State) : Prop where
  engine : t.engine = s.engine
  front : t.front = s.front
  shelf : t.shelf = s.shelf
  queue : t.queue = s.queue

theorem TestsStand.trans {s t u : State} (h : TestsStand s t) (k : TestsStand t u) : TestsStand s u :=
  ⟨k.engine.trans h.engine, k.front.trans h.front, k.shelf.trans h.shelf, k.queue.trans h.queue⟩

theorem logWrite_stand (b : LogBody) (s : State) : TestsStand s (logWrite b s) := ⟨rfl, rfl, rfl, rfl⟩

theorem logWrites_stand (bs : List LogBody) (s : State) : TestsStand s (logWrites bs s) :=
  logWrites_keeps (P := TestsStand s) (fun b u h => h.trans (logWrite_stand b u)) bs s ⟨rfl, rfl, rfl, rfl⟩

theorem raiseTo_stand (p : Client → Bool) (k : Notice) (s : State) : TestsStand s (raiseTo p k s) := ⟨rfl, rfl, rfl, rfl⟩

theorem setRoute_stand (r : RouteNo) (e : RouteEntry) (s : State) : TestsStand s (setRoute r e s) := ⟨rfl, rfl, rfl, rfl⟩

theorem setRecord_stand (r : RouteNo) (e : Option TestRecord) (s : State) : TestsStand s (setRecord r e s) :=
  ⟨rfl, rfl, rfl, rfl⟩

theorem setCand_stand (r : RouteNo) (e : Option Candidate) (s : State) : TestsStand s (setCand r e s) := ⟨rfl, rfl, rfl, rfl⟩

theorem setFault_stand (r : RouteNo) (f : FaultRecord) (s : State) : TestsStand s (setFault r f s) := ⟨rfl, rfl, rfl, rfl⟩

theorem freeBlocks_stand (bs : List Nat) (s : State) : TestsStand s (freeBlocks bs s) := ⟨rfl, rfl, rfl, rfl⟩

theorem reportChange_stand (r : RouteNo) (c : Condition) (test : Option (Nat × TestKind)) (by_ : Option Client) (s : State) :
    TestsStand s (reportChange r c test by_ s) := (logWrite_stand _ _).trans (raiseTo_stand _ _ _)

theorem setUnknown_stand (r : RouteNo) (c : Client) (s : State) : TestsStand s (setUnknown r c s) := by
  rcases setUnknown_cases r c s with ⟨-, k⟩ | ⟨-, k⟩ <;> rw [k]
  · exact setCand_stand _ _ _
  · exact ((setCand_stand _ _ _).trans (setFault_stand _ _ _)).trans (reportChange_stand _ _ _ _ _)

theorem captureClear_stand (r : RouteNo) (id acq : Nat) (t : Time) (s : State) : TestsStand s (captureClear r id acq t s) := by
  rcases captureClear_cases r id acq t s with ⟨-, k⟩ | ⟨-, k⟩ <;> rw [k]
  · exact (setCand_stand _ _ _).trans (setFault_stand _ _ _)
  · exact ((setCand_stand _ _ _).trans (setFault_stand _ _ _)).trans (reportChange_stand _ _ _ _ _)

theorem acceptDefinition_stand (c : Client) (r : RouteNo) (d : RouteDef) (s : State) :
    TestsStand s (acceptDefinition c r d s) := by
  rcases acceptDefinition_cases c r d s with ⟨-, k⟩ | ⟨-, k⟩ <;> rw [k]
  · exact (((setRoute_stand _ _ _).trans (freeBlocks_stand _ _)).trans (logWrite_stand _ _)).trans (setUnknown_stand _ _ _)
  · exact ((setRoute_stand _ _ _).trans (logWrite_stand _ _)).trans (setCand_stand _ _ _)

/-- The card with the route deleted, before its entries leave the queue (R74). -/
def emptiedRoute (c : Client) (r : RouteNo) (s : State) : State :=
  setUnknown r c (logWrite (.routeChange r c .deleted)
    (freeBlocks (baselineBlocks s.routes[r]) (setRecord r none (setRoute r (deletedEntry s.routes[r]) s))))

theorem emptiedRoute_stand (c : Client) (r : RouteNo) (s : State) : TestsStand s (emptiedRoute c r s) :=
  ((((setRoute_stand _ _ _).trans (setRecord_stand _ _ _)).trans (freeBlocks_stand _ _)).trans (logWrite_stand _ _)).trans
    (setUnknown_stand _ _ _)

/-- The engine's part of the law: one RUNNING entry in a queue in order, the laser off but in FIRING with no laser fault, the
engine waiting while the shelf reset line holds the card (R4, R24, R103). -/
structure EngineOk (s : State) : Prop where
  queue : QueueLaw s
  run : RunLaw s
  laser : s.front.laser = true → s.engine.state = .firing ∧ s.front.fault = false
  held : s.shelf.isSome = true → s.engine.state = .recovering ∧ s.engine.timer = none

/-- An acquisition that can be stopped is of a route open to the test (R82, R109). -/
def OpenLaw (s : State) : Prop :=
  canStop s.engine.state = true → ∀ run, s.engine.running = some run →
    isClosed s run.route = false ∧ (run.cls = .routine → isCovered s run.route = true)

theorem laserLaw_iff {s : State} : QueueLaw s ∧ RunLaw s ∧ LaserLaw s ↔ EngineOk s ∧ OpenLaw s :=
  ⟨fun ⟨hq, hr, hl, ho, hh⟩ => ⟨⟨hq, hr, hl, hh⟩, ho⟩, fun ⟨⟨hq, hr, hl, hh⟩, ho⟩ => ⟨hq, hr, hl, ho, hh⟩⟩

theorem openLaw_of_not_canStop {s : State} (h : canStop s.engine.state = false) : OpenLaw s :=
  fun hs => absurd hs (by rw [h]; decide)

theorem openLaw_of_not_busy {s : State} (h : busyState s.engine.state = false) : OpenLaw s :=
  openLaw_of_not_canStop (Bool.eq_false_iff.mpr fun hs => absurd (busy_of_canStop hs) (by rw [h]; decide))

theorem OpenLaw.of_eq {s t : State} (h : OpenLaw s) (he : t.engine = s.engine) (hopen : SameOpen s t) : OpenLaw t := by
  intro hs run hrun
  rw [he] at hs hrun
  rw [hopen.closed, hopen.covered]
  exact h hs run hrun

namespace EngineOk

variable {s t : State}

/-- A change of the queue that keeps its law and its RUNNING entries. -/
theorem of_queue (h : EngineOk s) (hq : QueueLaw t) (he : t.engine = s.engine) (hf : t.front = s.front)
    (hs : t.shelf = s.shelf) (hrun : runningOf t.queue.entries = runningOf s.queue.entries) : EngineOk t where
  queue := hq
  run := h.run.of_running he hrun
  laser := by rw [hf, he]; exact h.laser
  held := by rw [hs, he]; exact h.held

theorem of_eq (h : EngineOk s) (he : t.engine = s.engine) (hf : t.front = s.front)
    (hs : t.shelf = s.shelf) (hq : t.queue = s.queue) : EngineOk t :=
  h.of_queue (h.queue.of_eq hq) he hf hs (by rw [hq])

theorem of_stand (h : EngineOk s) (hs : TestsStand s t) : EngineOk t := h.of_eq hs.engine hs.front hs.shelf hs.queue

/-- The laser is off and the engine stands. -/
theorem dark (h : EngineOk s) (he : t.engine = s.engine) (hs : t.shelf = s.shelf) (hq : t.queue = s.queue)
    (hoff : t.front.laser = false) : EngineOk t where
  queue := h.queue.of_eq hq
  run := h.run.of_eq he (by rw [hq])
  laser hl := absurd hl (by rw [hoff]; decide)
  held := by rw [hs, he]; exact h.held

/-- The engine free of any acquisition, with the laser off. -/
theorem of_free (hq : QueueLaw s) (hfree : busyState s.engine.state = false) (hrun : s.engine.running = none)
    (hall : AllWaiting s) (hoff : s.front.laser = false)
    (hheld : s.shelf.isSome = true → s.engine.state = .recovering ∧ s.engine.timer = none) : EngineOk s where
  queue := hq
  run := runLaw_of_waiting hfree hrun hall
  laser hl := absurd hl (by rw [hoff]; decide)
  held := hheld

theorem laser_off (h : EngineOk s) (hstate : s.engine.state ≠ .firing) : s.front.laser = false :=
  Bool.eq_false_iff.mpr fun hl => hstate (h.laser hl).1

theorem shelf_none (h : EngineOk s) (hstate : s.engine.state ≠ .recovering) : s.shelf = none := by
  cases hs : s.shelf with
  | none => rfl
  | some k => exact absurd (h.held (by rw [hs]; rfl)).1 hstate

theorem stopped (h : EngineOk s) : EngineOk (stopRunning s) := by
  cases hstop : canStop s.engine.state with
  | false => exact (stopRunning_of_fixed hstop).symm ▸ h
  | true =>
    obtain ⟨run, e, hruns⟩ := h.run.runs (busy_of_canStop hstop)
    obtain ⟨hengine, hfront⟩ := stopRunning_engine hruns hstop
    have hshelf : s.shelf = none := h.shelf_none fun hr => by
      rw [hr] at hstop
      cases hstop
    refine of_free (queueLaw_cardStable.stopped s h.queue) (by rw [hengine]; rfl) (by rw [hengine]; rfl)
      (allWaiting_stopped hruns hstop) (by rw [hfront]) ?_
    rw [(stopRunning_portOnly s).shelf, hshelf]
    exact fun hs => absurd hs (by decide)

theorem takes (h : EngineOk s) {e : Entry} (hmay : MayTake s e) : EngineOk (takeEntry e s) ∧ OpenLaw (takeEntry e s) := by
  obtain ⟨hidle, hmem, helig, hfind⟩ := hmay
  obtain ⟨pre, post, hsplit, -, -⟩ := firstEligible_of_find hfind
  have hids := h.queue.2.1
  have hfree : busyState s.engine.state = false := by rw [hidle]; rfl
  obtain ⟨hrun, hall⟩ := h.run.waits hfree
  have hoff : s.front.laser = false := h.laser_off (by rw [hidle]; decide)
  have hshelf : (takeEntry e s).shelf = none :=
    (takeEntry_portOnly e s).shelf.trans (h.shelf_none (by rw [hidle]; decide))
  have hqueue := queueLaw_cardStable.takes e h.queue
  have hrest : runningOf pre = [] ∧ runningOf post = [] := by
    have : runningOf (pre ++ e :: post) = [] := hsplit ▸ allWaiting_iff.mp hall
    rw [runningOf_append, List.append_eq_nil_iff] at this
    exact ⟨this.1, List.eq_nil_of_sublist_nil (this.2 ▸ (List.sublist_cons_self e post).filter _)⟩
  have hheld : (takeEntry e s).shelf.isSome = true →
      (takeEntry e s).engine.state = .recovering ∧ (takeEntry e s).engine.timer = none := by
    rw [hshelf]
    exact fun hs => absurd hs (by decide)
  cases hbody : s.routes[e.route].body with
  | none =>
    rcases takeEntry_cases e s with ⟨-, k⟩ | ⟨b, hb, -⟩
    · rw [k]
      exact ⟨h, openLaw_of_not_busy hfree⟩
    · rw [hb] at hbody
      cases hbody
  | some b =>
    by_cases hblocks : HasBlocks e b s
    · have htaken := takeEntry_taken hsplit hids hbody hblocks
      obtain ⟨hrunning, hentries, hlaser⟩ := htaken.recorded
      have hbusy : busyState (takeEntry e s).engine.state = true := by
        rcases htaken.state with k | k <;> rw [k] <;> rfl
      refine ⟨⟨hqueue, ⟨fun _ => ⟨_, { e with running := some (takeEntry e s).engine.acq }, hrunning, ?_, rfl, rfl, rfl, rfl, rfl⟩, fun hf => ?_⟩, fun hl => ?_, hheld⟩, ?_⟩
      · show runningOf _ = _
        rw [hentries, runningOf_append, hrest.1]
        rw [runningOf_cons rfl, hrest.2]
        rfl
      · rw [hbusy] at hf
        cases hf
      · rw [hlaser, hoff] at hl
        cases hl
      · intro _ run hr
        obtain rfl := Option.some.inj (hrunning.symm.trans hr)
        have hopen := (takeEntry_portOnly e s).sameOpen
        have hmay : mayRun s e.route e.cls = true := (Bool.and_eq_true_iff.mp helig).2
        obtain ⟨hclosed, hcls⟩ := mayRun_iff.mp hmay
        rw [hopen.closed, hopen.covered]
        refine ⟨hclosed, fun hroutine => hcls.resolve_left fun hu => ?_⟩
        rw [show e.cls = .routine from hroutine] at hu
        cases hu
    · obtain ⟨hstate, hentries, -⟩ := takeEntry_short hsplit hids hbody hblocks
      have hengine : (takeEntry e s).engine = { s.engine with acq := (s.engine.acq + 1) % 65536 } := by rw [hstate]
      have hfree' : busyState (takeEntry e s).engine.state = false := by rw [hengine]; exact hfree
      refine ⟨of_free hqueue hfree' (by rw [hengine]; exact hrun) ?_ (by rw [hstate]; exact hoff) hheld,
        openLaw_of_not_busy hfree'⟩
      rw [allWaiting_iff, hentries, runningOf_append, hrest.1, hrest.2]
      rfl

/-- The hand-out keeps both parts of the law. -/
theorem handsOut (h : EngineOk s) (ho : OpenLaw s) : EngineOk (handOut s) ∧ OpenLaw (handOut s) :=
  handOut_keeps (P := fun s => EngineOk s ∧ OpenLaw s) (fun _ _ h hmay => h.1.takes hmay) s ⟨h, ho⟩

theorem openLaw_stopped (h : EngineOk s) : OpenLaw (stopRunning s) := by
  cases hstop : canStop s.engine.state with
  | false => exact openLaw_of_not_canStop ((stopRunning_of_fixed hstop).symm ▸ hstop)
  | true =>
    obtain ⟨run, e, hruns⟩ := h.run.runs (busy_of_canStop hstop)
    exact openLaw_of_not_canStop (by rw [(stopRunning_engine hruns hstop).1]; rfl)

theorem arbitrates (h : EngineOk s) (ho : OpenLaw s) : EngineOk (arbitrate s) ∧ OpenLaw (arbitrate s) :=
  arbitrate_keeps (P := fun s => EngineOk s ∧ OpenLaw s) (fun _ h => ⟨h.1.stopped, h.1.openLaw_stopped⟩)
    (fun _ _ h hmay => h.1.takes hmay) s ⟨h, ho⟩

/-- A coverage report restores the law where coverage alone may have been lost (R115). -/
theorem covers (h : EngineOk s)
    (hclosed : canStop s.engine.state = true → ∀ run, s.engine.running = some run → isClosed s run.route = false) :
    EngineOk (coverageReport s) ∧ OpenLaw (coverageReport s) := by
  rw [coverageReport_eq]
  refine (coverageStop_keeps (fun _ h => h.stopped) h).handsOut ?_
  cases hstop : canStop s.engine.state with
  | false =>
    rw [show coverageStop s = s by unfold coverageStop; split <;> simp [stopRunning_of_fixed hstop]]
    exact openLaw_of_not_canStop hstop
  | true =>
    obtain ⟨run, e, hruns⟩ := h.run.runs (busy_of_canStop hstop)
    unfold coverageStop
    rw [hruns.found]
    dsimp only
    split
    · exact h.openLaw_stopped
    · rename_i hno
      intro _ run' hrun'
      obtain rfl := Option.some.inj (hruns.engine.symm.trans hrun')
      refine ⟨hclosed hstop _ hruns.engine, fun hcls => ?_⟩
      by_contra hcov
      refine hno ⟨hruns.cls.trans hcls, ?_⟩
      rw [hruns.route]
      simpa using hcov

/-- A report of the Route Table restores the law where routes that were open may have been closed (R116). -/
theorem reports (h : EngineOk s) (was : RouteNo → Bool)
    (hopen : canStop s.engine.state = true → ∀ run, s.engine.running = some run →
      was run.route = false ∧ (run.cls = .routine → isCovered s run.route = true)) :
    EngineOk (routeReport was s) ∧ OpenLaw (routeReport was s) := by
  rw [routeReport_eq]
  refine (routeStop_keeps (fun _ h => h.stopped) was h).arbitrates ?_
  cases hstop : canStop s.engine.state with
  | false =>
    rw [show routeStop was s = s by unfold routeStop; split <;> simp [stopRunning_of_fixed hstop]]
    exact openLaw_of_not_canStop hstop
  | true =>
    obtain ⟨run, e, hruns⟩ := h.run.runs (busy_of_canStop hstop)
    unfold routeStop
    rw [hruns.found]
    dsimp only
    split
    · exact h.openLaw_stopped
    · rename_i hno
      intro _ run' hrun'
      obtain rfl := Option.some.inj (hruns.engine.symm.trans hrun')
      obtain ⟨hwas, hcov⟩ := hopen hstop _ hruns.engine
      refine ⟨?_, hcov⟩
      rw [hruns.route, hwas] at hno
      simpa using hno

theorem asks (h : EngineOk s) (ho : OpenLaw s) {who : Nat} (hwho : IsRequester who) (r : RouteNo) (k : TestKind)
    (cls : TestClass) : EngineOk (askTest who r k cls s).2 ∧ OpenLaw (askTest who r k cls s).2 := by
  rcases askTest_placed who r k cls s with h' | ⟨hb, -, ⟨e, hm, hw, -, -, h'⟩ | ⟨hl, ht, h'⟩⟩ <;> rw [h']
  · exact ⟨h, ho⟩
  · rcases joinEntry_cases who cls e s with ⟨-, k⟩ | ⟨-, k⟩ <;> rw [k]
    · have hup : EngineOk (upgradedState who e s) := h.of_queue (queueLaw_cardStable.upgraded who e s hwho hm h.queue) rfl rfl
        rfl (runningOf_upgraded h.queue hm hw who)
      exact hup.arbitrates (ho.of_eq rfl (sameOpen_of_eq rfl rfl rfl))
    · exact ⟨h.of_queue (queueLaw_cardStable.joined who e s hwho hm h.queue) rfl rfl rfl (runningOf_joined h.queue hm hw who),
        ho.of_eq rfl (sameOpen_of_eq rfl rfl rfl)⟩
  · have hp : EngineOk (placedState (freshId s.queue.entries 33 s.queue.counter) who r k cls s) :=
      h.of_queue (queueLaw_cardStable.placed who r k cls s hwho hb hl ht h.queue) rfl rfl rfl (runningOf_placed ..)
    have hpo : OpenLaw (placedState (freshId s.queue.entries 33 s.queue.counter) who r k cls s) :=
      ho.of_eq rfl (sameOpen_of_eq rfl rfl rfl)
    rcases newEntry_cases (freshId s.queue.entries 33 s.queue.counter) who r k cls s with ⟨-, k⟩ | ⟨-, k⟩ <;> rw [k]
    · exact hp.arbitrates hpo
    · exact hp.handsOut hpo

end EngineOk

end Sys2Proof.Machine
end

section
/-!
The laser and the RUNNING entry (R4, R103): every request and every event keeps the law.
-/
namespace Sys2Proof.Machine

/-! ### The finish of a test (R16) -/

/-- The state of a finish before the finish report: reservation, equipment error and test record (R16). -/
def recordedState (run : Running) (out : TestOutcome) (err : Option EquipKind) (held : Option HeldAnalysis)
    (j : Option Judgement) (s : State) : State :=
  setRecord run.route (some (finishRecord run s.engine.acq out s.clock.now held j))
    (withError err run.route (returnReservation s))

theorem recordedState_queue (run : Running) (out : TestOutcome) (err : Option EquipKind) (held : Option HeldAnalysis)
    (j : Option Judgement) (s : State) : (recordedState run out err held j s).queue = s.queue :=
  (withError_frame err run.route (returnReservation s)).2.trans (returnReservation_queue s)

/-- The running entry is the one that leaves the queue. -/
theorem leftState_eq {s : State} (hq : QueueLaw s) {run : Running} {e : Entry} (h : Runs s run e) (out : TestOutcome)
    (err : Option EquipKind) (held : Option HeldAnalysis) (j : Option Judgement) :
    leftState run out err held j s = leaveQueue e out e.reqs none (recordedState run out err held j s) := by
  show reportFinish run.id out (recordedState run out err held j s) = _
  unfold reportFinish
  rw [recordedState_queue, ← h.id, find_id_eq hq.2.1 h.mem]

theorem leftState_queueLaw {s : State} (hq : QueueLaw s) {run : Running} {e : Entry} (h : Runs s run e) (out : TestOutcome)
    (err : Option EquipKind) (held : Option HeldAnalysis) (j : Option Judgement) : QueueLaw (leftState run out err held j s) := by
  rw [leftState_eq hq h]
  exact queueLaw_cardStable.leave _ _ _ _ _ (hq.of_eq (recordedState_queue ..))

theorem leftState_entries {s : State} (hq : QueueLaw s) {run : Running} {e : Entry} (h : Runs s run e) (out : TestOutcome)
    (err : Option EquipKind) (held : Option HeldAnalysis) (j : Option Judgement) :
    (leftState run out err held j s).queue.entries = s.queue.entries.filter fun x => x.id != run.id := by
  rw [leftState_eq hq h, (leaveQueue_queue _ _ _ _ _).1, recordedState_queue, h.id]

theorem runningOf_without {s : State} {run : Running} {e : Entry} (h : Runs s run e) :
    runningOf (s.queue.entries.filter fun x => x.id != run.id) = [] := by
  unfold runningOf
  rw [List.filter_filter, List.filter_eq_nil_iff]
  intro x hx hboth
  obtain ⟨hw, hid⟩ := Bool.and_eq_true_iff.mp hboth
  have hxe : x = e := h.only x hx (by simpa using hw)
  rw [hxe, h.id] at hid
  exact absurd rfl (bne_iff_ne.mp hid)

theorem leftState_fixed {s : State} (h : EngineFixed s) (run : Running) (out : TestOutcome) (err : Option EquipKind)
    (held : Option HeldAnalysis) (j : Option Judgement) : EngineFixed (leftState run out err held j s) := by
  unfold EngineFixed
  rw [(leftState_stands run out err held j s).engine, returnReservation_engine]
  exact h

/-- After a finish every entry waits, in a queue in order. -/
theorem finishEntry_waits {s : State} (hq : QueueLaw s) {run : Running} {e : Entry} (h : Runs s run e)
    (out : TestOutcome) (err : Option EquipKind) (held : Option HeldAnalysis) {j : Option Judgement}
    (hj : j = none ∨ EngineFixed s) : AllWaiting (finishEntry out err held j s) := by
  have hleft : runningOf (leftState run out err held j s).queue.entries = [] := by
    rw [leftState_entries hq h]
    exact runningOf_without h
  rw [allWaiting_iff, finishEntry_eq h.engine]
  unfold giveFinding
  split
  · rcases hj with hj | hj
    · cases hj
    · exact (runningOf_takeFinding_of_fixed _ (leftState_queueLaw hq h _ _ _ _) (leftState_fixed hj _ _ _ _ _)).trans hleft
  · exact hleft

theorem stateAfterStage_free (s : State) : busyState (stateAfterStage s) = false := by
  unfold stateAfterStage
  split <;> rfl

theorem writeDone_stand (b : Nat) (data : List Nat) (s : State) : TestsStand s (writeDone b data s) := ⟨rfl, rfl, rfl, rfl⟩

theorem commitCapture_stand (run : Running) (r : Reservation) (h : HeldAnalysis) (s : State) :
    TestsStand s (commitCapture run r h s) := by
  rcases commitCapture_cases run r h s with ⟨-, k⟩ | ⟨b, -, k⟩ <;> rw [k]
  · exact ⟨rfl, rfl, rfl, rfl⟩
  · refine TestsStand.trans ?_ (captureClear_stand _ _ _ _ _)
    exact ⟨rfl, rfl, rfl, rfl⟩

namespace EngineOk

variable {s t : State}

/-- The card once a running test has finished: nothing runs, the laser is off (R16). -/
theorem finished (h : EngineOk s) (hbusy : busyState s.engine.state = true) (hoff : s.front.laser = false)
    (out : TestOutcome) (err : Option EquipKind) (held : Option HeldAnalysis) {j : Option Judgement}
    (hj : j = none ∨ EngineFixed s) :
    QueueLaw (finishEntry out err held j s) ∧ AllWaiting (finishEntry out err held j s)
      ∧ (finishEntry out err held j s).front.laser = false ∧ (finishEntry out err held j s).shelf = none := by
  obtain ⟨run, e, hruns⟩ := h.run.runs hbusy
  have hstands := finishEntry_stands hruns.engine out err held hj
  refine ⟨queueLaw_cardStable.finishes out err held j h.queue, finishEntry_waits h.queue hruns out err held hj, ?_, ?_⟩
  · rw [hstands.front, returnReservation_front, hoff]
  · rw [(finishEntry_finishOnly out err held j s).shelf]
    exact h.shelf_none fun hr => by
      rw [hr] at hbusy
      cases hbusy

/-- The engine takes a state in which it works on no entry. -/
theorem freed {st : EngineState} (hst : busyState st = false) (hq : QueueLaw s) (hall : AllWaiting s)
    (hoff : s.front.laser = false) (hshelf : s.shelf = none) {e : Engine} (hstate : e.state = st) (hrun : e.running = none) :
    EngineOk { s with engine := e } ∧ OpenLaw { s with engine := e } := by
  refine ⟨of_free hq (hstate ▸ hst) hrun hall hoff fun hs => ?_, openLaw_of_not_busy (hstate ▸ hst)⟩
  have hnone : ¬s.shelf.isSome = true := by rw [hshelf]; decide
  exact absurd hs hnone

theorem concluded {st : EngineState} (hst : busyState st = false) (hq : QueueLaw s) (hall : AllWaiting s)
    (hoff : s.front.laser = false) (hshelf : s.shelf = none) :
    EngineOk (concludeIn st s) ∧ OpenLaw (concludeIn st s) := by
  obtain ⟨hok, hopen⟩ := freed hst hq hall hoff hshelf (e := s.engine.freed st) rfl rfl
  exact hok.handsOut hopen

theorem homed (hq : QueueLaw s) (hall : AllWaiting s) (hoff : s.front.laser = false) (hshelf : s.shelf = none) :
    EngineOk (homeSwitch s) ∧ OpenLaw (homeSwitch s) := by
  unfold homeSwitch
  split
  · exact concluded rfl hq hall hoff hshelf
  · exact freed (s := { s with switch := .moving .home }) rfl hq hall hoff hshelf rfl rfl

/-- A test that runs finishes and the engine takes its new state (R16). -/
theorem ended (h : EngineOk s) (hbusy : busyState s.engine.state = true) (hoff : s.front.laser = false)
    (out : TestOutcome) (err : Option EquipKind) (held : Option HeldAnalysis) {j : Option Judgement}
    (hj : j = none ∨ EngineFixed s) {st : EngineState} (hst : busyState st = false) :
    EngineOk (concludeIn st (finishEntry out err held j s)) ∧ OpenLaw (concludeIn st (finishEntry out err held j s)) := by
  obtain ⟨hq, hall, hoff, hshelf⟩ := h.finished hbusy hoff out err held hj
  exact concluded hst hq hall hoff hshelf

/-- The engine moves on with the acquisition that it works on. -/
theorem moved (h : EngineOk s) (hbusy : busyState s.engine.state = true) (hbusy' : busyState t.engine.state = true)
    (hrun : t.engine.running = s.engine.running) (hacq : t.engine.acq = s.engine.acq) (hq : t.queue = s.queue)
    (hshelf : t.shelf = s.shelf) (hlaser : t.front.laser = true → t.engine.state = .firing ∧ t.front.fault = false) :
    EngineOk t := by
  obtain ⟨run, e, hr, hone, hid, hroute, hkind, hcls, he⟩ := h.run.1 hbusy
  refine ⟨h.queue.of_eq hq, ⟨fun _ => ⟨run, e, hrun.trans hr, ?_, hid, hroute, hkind, hcls, ?_⟩, fun hf => ?_⟩, hlaser, ?_⟩
  · rw [hq]
    exact hone
  · rw [hacq]
    exact he
  · rw [hbusy'] at hf
    cases hf
  · rw [hshelf, h.shelf_none fun hr => by rw [hr] at hbusy; cases hbusy]
    exact fun hs => absurd hs (by decide)

theorem faultedEngine (h : EngineOk s) (hoff : s.front.laser = false) (hshelf : s.shelf = none) :
    EngineOk (faultEngine s) ∧ OpenLaw (faultEngine s) := by
  rcases faultEngine_cases s with ⟨hstop, k⟩ | ⟨hstate, k⟩ | ⟨hstate, k⟩ <;> rw [k]
  · refine ended (s := frontOff s) ?_ (busy_of_canStop hstop) rfl _ _ _ (.inl rfl) rfl
    exact h.dark rfl rfl rfl rfl
  · have hbusy : busyState s.engine.state = true := by rcases hstate with k | k <;> rw [k] <;> rfl
    refine ⟨h.moved hbusy hbusy rfl rfl rfl rfl fun hl => ?_, openLaw_of_not_canStop ?_⟩
    · exact absurd (hoff.symm.trans hl) (by decide)
    · show canStop s.engine.state = false
      rcases hstate with k | k <;> rw [k] <;> rfl
  · have hfree : busyState s.engine.state = false := by rcases hstate with k | k | k <;> rw [k] <;> rfl
    obtain ⟨hrun, hall⟩ := h.run.waits hfree
    exact freed (s := equipError .laserFault none s) (st := .faulted) rfl (h.queue.of_eq rfl) hall hoff hshelf rfl hrun

/-- The laser-fault signal (R19, R24). -/
theorem laserFaulted (h : EngineOk { s with front := { s.front with laser := false } }) (ho : OpenLaw s) :
    EngineOk (laserFault s) ∧ OpenLaw (laserFault s) := by
  rcases laserFault_cases s with ⟨-, k⟩ | ⟨hshelf, k⟩ <;> rw [k]
  · exact ⟨h, ho.of_eq rfl (sameOpen_of_eq rfl rfl rfl)⟩
  · exact h.faultedEngine rfl hshelf

/-- FIRING starts after a live check that passed (R10, R19). -/
theorem fires (h : EngineOk s) (ho : OpenLaw s) (hstate : s.engine.state = .liveCheck) (len : Nat) :
    EngineOk (startFiring len s) ∧ OpenLaw (startFiring len s) := by
  have hbusy : busyState s.engine.state = true := by rw [hstate]; rfl
  have hopen : OpenLaw (firingState len s) := by
    intro _ run hrun
    exact ho (by rw [hstate]; rfl) run hrun
  rcases startFiring_cases len s with ⟨hfault, k⟩ | ⟨-, k⟩ <;> rw [k]
  · exact ⟨h.moved hbusy rfl rfl rfl rfl rfl fun _ => ⟨rfl, hfault⟩, hopen⟩
  · refine laserFaulted (h.moved hbusy rfl rfl rfl rfl rfl fun hl => ?_) hopen
    cases hl

end EngineOk

/-! ### The windows and the routes -/

theorem isCovered_setWindows {s : State} {new : Vector Window 8}
    (h : ∀ w : WindowNo, (new[w].remaining ≠ none ↔ s.windows[w].remaining ≠ none)
      ∧ (s.windows[w].remaining ≠ none → new[w].settings.routes = s.windows[w].settings.routes)) (r : RouteNo) :
    isCovered { s with windows := new } r = isCovered s r := by
  rw [Bool.eq_iff_iff, isCovered_iff, isCovered_iff]
  refine exists_congr fun w => ?_
  obtain ⟨hopen, hroutes⟩ := h w
  constructor
  · rintro ⟨hr, hb⟩
    have hr' := hopen.mp hr
    exact ⟨hr', hroutes hr' ▸ hb⟩
  · rintro ⟨hr, hb⟩
    exact ⟨hopen.mpr hr, (hroutes hr).symm ▸ hb⟩

/-- Where nothing is to be reported, each window is open or closed as before. -/
theorem windowChanges_eq_nil_iff {cause : CloseCause} {old new : Vector Window 8} :
    windowChanges cause old new = [] ↔ ∀ w : WindowNo, (new[w].remaining ≠ none ↔ old[w].remaining ≠ none) := by
  unfold windowChanges
  rw [List.filterMap_eq_nil_iff]
  have hall : ∀ w : WindowNo, w ∈ windowNumbers := by decide
  constructor
  · intro h w
    have hw := h w (hall w)
    revert hw
    generalize old[w].remaining = a
    generalize new[w].remaining = b
    cases a <;> cases b <;> simp
  · intro h w _
    have hw := h w
    revert hw
    generalize old[w].remaining = a
    generalize new[w].remaining = b
    cases a <;> cases b <;> simp

theorem sameOpen_setWindows {s : State} {new : Vector Window 8}
    (h : ∀ w : WindowNo, (new[w].remaining ≠ none ↔ s.windows[w].remaining ≠ none)
      ∧ (s.windows[w].remaining ≠ none → new[w].settings.routes = s.windows[w].settings.routes)) :
    SameOpen s { s with windows := new } :=
  ⟨fun _ => rfl, isCovered_setWindows h⟩

theorem editedWindows_same (i : WindowNo) (w : WindowSettings) (s : State) :
    (editedWindows i w s)[i] = editedWindow w s.windows[i] := by
  rw [editedWindows, getFin_set, if_pos rfl]

theorem editedWindows_other {i j : WindowNo} (h : i ≠ j) (w : WindowSettings) (s : State) :
    (editedWindows i w s)[j] = s.windows[j] := by
  rw [editedWindows, getFin_set, if_neg h]

/-- An edit that disables a window leaves the routes of the others. -/
theorem editedWindows_closing {i : WindowNo} {w : WindowSettings} {s : State} (hdisabled : w.enabled = false) (j : WindowNo)
    (hj : (editedWindows i w s)[j].remaining ≠ none ↔ s.windows[j].remaining ≠ none) (hopen : s.windows[j].remaining ≠ none) :
    (editedWindows i w s)[j].settings.routes = s.windows[j].settings.routes := by
  by_cases hij : i = j
  · subst hij
    refine absurd (hj.mpr hopen) ?_
    rw [editedWindows_same, editedWindow, hdisabled]
    simp
  · rw [editedWindows_other hij]

/-- An edit of a CLOSED window, or one that leaves it open with its routes, changes no coverage (R154). -/
theorem sameOpen_editedWindows {i : WindowNo} {w : WindowSettings} {s : State}
    (h : s.windows[i].remaining = none ∨ w.enabled = true ∧ s.windows[i].settings.routes = w.routes) :
    SameOpen s { s with windows := editedWindows i w s } := by
  refine sameOpen_setWindows fun j => ?_
  by_cases hij : i = j
  · subst hij
    rw [editedWindows_same, editedWindow]
    rcases h with hclosed | ⟨henabled, hroutes⟩
    · rw [hclosed]
      simp
    · rw [henabled, hroutes]
      simp
  · rw [editedWindows_other hij]
    exact ⟨Iff.rfl, fun _ => rfl⟩

theorem rolledWindows_settings (t : Time) (s : State) (w : WindowNo) :
    (rolledWindows t s)[w].settings = s.windows[w].settings := by
  rw [rolledWindows, mapTable_getFin, windowAtRollover]
  repeat' split
  all_goals rfl

theorem isClosed_setRoute {s : State} {r : RouteNo} {e : RouteEntry} (h : e.holds = 0 ↔ s.routes[r].holds = 0) (x : RouteNo) :
    isClosed (setRoute r e s) x = isClosed s x := by
  unfold isClosed isHeld isBarred
  show ((s.routes.set r e)[x].holds != 0 || _) = _
  rw [getFin_set]
  split
  · rename_i hrx
    subst hrx
    congr 1
    rw [Bool.eq_iff_iff, bne_iff_ne, bne_iff_ne, ne_eq, ne_eq, h]
  · rfl

theorem sameOpen_setRoute {s : State} {r : RouteNo} {e : RouteEntry} (h : e.holds = 0 ↔ s.routes[r].holds = 0) :
    SameOpen s (setRoute r e s) :=
  ⟨isClosed_setRoute h, fun _ => rfl⟩

namespace EngineOk

variable {s t : State}

/-- The windows change, with a report where one of them opened or closed (R115, R149). -/
theorem changes (h : EngineOk s) (ho : OpenLaw s) (cause : CloseCause) {new : Vector Window 8}
    (hroutes : ∀ w : WindowNo, (new[w].remaining ≠ none ↔ s.windows[w].remaining ≠ none) →
      s.windows[w].remaining ≠ none → new[w].settings.routes = s.windows[w].settings.routes) :
    EngineOk (changeWindows cause new s) ∧ OpenLaw (changeWindows cause new s) := by
  rcases changeWindows_cases cause new s with ⟨hnil, k⟩ | ⟨-, k⟩ <;> rw [k]
  · have hsame := windowChanges_eq_nil_iff.mp hnil
    exact ⟨h.of_eq rfl rfl rfl rfl, ho.of_eq rfl (sameOpen_setWindows fun w => ⟨hsame w, hroutes w (hsame w)⟩)⟩
  · have hframe := (logWrites_queueOnly (windowChanges cause s.windows new) { s with windows := new }).trans
      (raiseTo_queueOnly (fun _ => true) .window _)
    have hstand := (logWrites_stand (windowChanges cause s.windows new) { s with windows := new }).trans
      (raiseTo_stand (fun _ => true) .window _)
    have hwindows : EngineOk { s with windows := new } := h.of_eq rfl rfl rfl rfl
    refine covers (hwindows.of_stand hstand) fun hstop run hrun => ?_
    rw [raiseAll] at hstop hrun
    rw [hframe.engine] at hstop hrun
    rw [raiseAll, hframe.port.sameOpen.closed]
    exact (ho hstop run hrun).1

theorem holds (h : EngineOk s) (ho : OpenLaw s) (c : Client) (r : RouteNo) (x : HoldSet) :
    EngineOk (changeHolds c r x s) ∧ OpenLaw (changeHolds c r x s) := by
  have hstand := (setRoute_stand r { s.routes[r] with holds := x } s).trans (logWrite_stand (.holdChange r c x) _)
  rcases changeHolds_cases c r x s with ⟨-, k⟩ | ⟨⟨hs, hx⟩, k⟩ <;> rw [k]
  · refine (h.of_stand hstand).reports _ fun hstop run hrun => ?_
    rw [hstand.engine] at hstop hrun
    obtain ⟨hclosed, hcovered⟩ := ho hstop run hrun
    exact ⟨hclosed, fun hcls => ((logWrite_queueOnly _ _).port.sameOpen.covered _).trans (hcovered hcls)⟩
  · exact ⟨h.of_stand hstand, ho.of_eq hstand.engine
      ((sameOpen_setRoute (iff_of_false hx hs)).trans (logWrite_queueOnly _ _).port.sameOpen)⟩

theorem edits (h : EngineOk s) (ho : OpenLaw s) (i : WindowNo) (w : WindowSettings) :
    EngineOk (acceptWindow i w s) ∧ OpenLaw (acceptWindow i w s) := by
  rcases acceptWindow_cases i w s with ⟨hcase, k⟩ | ⟨-, k⟩ | ⟨hcase, k⟩ <;> rw [k]
  · exact h.changes ho _ (editedWindows_closing hcase.2)
  · exact (h.of_eq (t := { s with windows := editedWindows i w s }) rfl rfl rfl rfl).covers fun hstop run hrun =>
      (ho hstop run hrun).1
  · exact ⟨h.of_eq rfl rfl rfl rfl, ho.of_eq rfl (sameOpen_editedWindows hcase)⟩

theorem rolls (h : EngineOk s) (ho : OpenLaw s) : EngineOk (tickClock s) ∧ OpenLaw (tickClock s) := by
  rcases tickClock_cases s with ⟨-, k⟩ | ⟨-, -, k⟩ | ⟨-, -, hshelf, k⟩ | ⟨-, -, -, k⟩ <;> rw [k]
  · exact ⟨h, ho⟩
  · exact ⟨h.of_eq rfl rfl rfl rfl, ho.of_eq rfl (sameOpen_of_eq rfl rfl rfl)⟩
  · refine ⟨h.of_eq rfl rfl rfl rfl, openLaw_of_not_canStop ?_⟩
    show canStop s.engine.state = false
    rw [(h.held (Option.isSome_iff_ne_none.mpr hshelf)).1]
    rfl
  · exact changes (s := { s with clock := { s.clock with now := nextSecond s.clock.now } }) (h.of_eq rfl rfl rfl rfl)
      (ho.of_eq rfl (sameOpen_of_eq rfl rfl rfl)) _ fun w _ _ => congrArg WindowSettings.routes (rolledWindows_settings _ s w)

theorem defines (h : EngineOk s) (ho : OpenLaw s) (c : Client) (r : RouteNo) (d : RouteDef) :
    EngineOk (acceptDefinition c r d s) ∧ OpenLaw (acceptDefinition c r d s) := by
  have hsame : SameOpen s (setRoute r (definedEntry s.routes[r] d) s) := sameOpen_setRoute Iff.rfl
  exact ⟨h.of_stand (acceptDefinition_stand c r d s), ho.of_eq (acceptDefinition_stand c r d s).engine
    (hsame.trans (acceptDefinition_finishOnly c r d s).sameOpen)⟩

/-- An entry that waits leaves the queue. -/
theorem leaves (h : EngineOk s) {e : Entry} (he : e ∈ s.queue.entries) (hw : isWaiting e = true) (out : TestOutcome)
    (reqs : RequesterSet) (c : Option Client) : EngineOk (leaveQueue e out reqs c s) := by
  have hframe := leaveQueue_queueOnly e out reqs c s
  refine h.of_queue (queueLaw_cardStable.leave e out reqs c s h.queue) hframe.engine hframe.front hframe.shelf ?_
  rw [(leaveQueue_queue e out reqs c s).1]
  refine runningOf_filter fun x hx hr => bne_iff_ne.mpr fun hid => ?_
  rw [(queueLaw_iff.mp h.queue).1.eq_of_id hx he hid, hw] at hr
  cases hr

theorem removes (out : TestOutcome) {es : List Entry} (h : EngineOk s)
    (hes : ∀ e ∈ es, ∀ x ∈ s.queue.entries, isWaiting x = false → x.id ≠ e.id) :
    EngineOk (es.foldl (fun s e => leaveQueue e out e.reqs none s) s) := by
  induction es generalizing s with
  | nil => exact h
  | cons e es ih =>
    rw [List.foldl_cons]
    have hframe := leaveQueue_queueOnly e out e.reqs none s
    have hentries := (leaveQueue_queue e out e.reqs none s).1
    refine ih ?_ fun d hd x hx hw => ?_
    · refine h.of_queue (queueLaw_cardStable.leave e out e.reqs none s h.queue) hframe.engine hframe.front hframe.shelf ?_
      rw [hentries]
      exact runningOf_filter fun x hx hr => bne_iff_ne.mpr (hes e (by simp) x hx hr)
    · rw [hentries] at hx
      exact hes d (by simp [hd]) x (List.mem_filter.mp hx).1 hw

theorem deletes (h : EngineOk s) (ho : OpenLaw s) (c : Client) (r : RouteNo) :
    EngineOk (acceptDeletion c r s) ∧ OpenLaw (acceptDeletion c r s) := by
  have hsame : SameOpen s (setRoute r (deletedEntry s.routes[r]) s) := sameOpen_setRoute Iff.rfl
  have hopen := hsame.trans (acceptDeletion_finishOnly c r s).sameOpen
  have hengine : (acceptDeletion c r s).engine = s.engine :=
    (removeWaiting_queueOnly r (emptiedRoute c r s)).engine.trans (emptiedRoute_stand c r s).engine
  refine ⟨?_, ho.of_eq hengine hopen⟩
  have hbefore := h.of_stand (emptiedRoute_stand c r s)
  show EngineOk (removeWaiting r (emptiedRoute c r s))
  refine hbefore.removes .routeDeleted fun e he x hx hw hid => ?_
  obtain ⟨he, hp⟩ := List.mem_filter.mp he
  rw [(queueLaw_iff.mp hbefore.queue).1.eq_of_id hx he hid] at hw
  simp [hw] at hp

theorem leavesFaulted (h : EngineOk s) (hstate : s.engine.state = .faulted) :
    EngineOk (leaveFaulted s) ∧ OpenLaw (leaveFaulted s) := by
  have hfree : busyState s.engine.state = false := by rw [hstate]; rfl
  have hoff := h.laser_off (by rw [hstate]; decide)
  have hshelf := h.shelf_none (by rw [hstate]; decide)
  obtain ⟨-, hall⟩ := h.run.waits hfree
  unfold leaveFaulted
  split
  · exact freed rfl h.queue hall hoff hshelf rfl rfl
  · exact homed h.queue hall hoff hshelf

/-- The acquisition of a cancelled entry stops and the entry leaves the queue (R17, R118). -/
theorem cancels (h : EngineOk s) {e : Entry} {acq : Nat} (mem : e ∈ s.queue.entries) (runs : e.running = some acq)
    (stops : stopsFor acq s = true) (reqs : RequesterSet) (c : Option Client) :
    EngineOk (leaveQueue e .cancelled reqs c (stopAcquisition s)) := by
  have hstop : canStop s.engine.state = true := (Bool.and_eq_true_iff.mp stops).1
  obtain ⟨run, hruns⟩ := h.run.runs_of_mem mem (isWaiting_eq_false_iff.mpr ⟨acq, runs⟩)
  have hframe := leaveQueue_queueOnly e .cancelled reqs c (stopAcquisition s)
  have hengine : (leaveQueue e .cancelled reqs c (stopAcquisition s)).engine = s.engine.freed .idle :=
    hframe.engine.trans (stopAcquisition_engine s)
  refine of_free (queueLaw_cardStable.leave _ _ _ _ _ (h.queue.of_eq (stopAcquisition_queue s))) (by rw [hengine]; rfl)
    (by rw [hengine]; rfl) ?_ (by rw [hframe.front, stopAcquisition_front]) ?_
  · rw [allWaiting_iff, (leaveQueue_queue _ _ _ _ _).1, stopAcquisition_queue, hruns.id]
    exact runningOf_without hruns
  · rw [hframe.shelf, (stopAcquisition_portOnly s).shelf, h.shelf_none fun hr => by rw [hr] at hstop; cases hstop]
    exact fun hs => absurd hs (by decide)

/-! ### Every request and every event -/

theorem work {c : Client} {wf : Prop} {code : Nat} (hw : Work c wf code s t) (h : EngineOk s) (ho : OpenLaw s) :
    EngineOk t ∧ OpenLaw t := by
  have hstays : ∀ {u v : State}, EngineOk u ∧ OpenLaw u → v.engine = u.engine → v.front = u.front → v.shelf = u.shelf →
      v.queue = u.queue → SameOpen u v → EngineOk v ∧ OpenLaw v := fun hu he hf hs hq hopen =>
    ⟨hu.1.of_eq he hf hs hq, hu.2.of_eq he hopen⟩
  induction hw with
  | nothing => exact ⟨h, ho⟩
  | test r k cl => exact h.asks ho (CardStable.bitOf_lt_five c) r k cl
  | testGone r k cl =>
    exact hstays (h.asks ho (CardStable.bitOf_lt_five c) r k cl) rfl rfl rfl rfl (sameOpen_of_eq rfl rfl rfl)
  | cancelKept e mem left =>
    have hframe := (setEntries_queueOnly (s.queue.entries.map fun x =>
      if x.id = e.id then { x with reqs := del e.reqs (bitOf c) } else x) s).trans (dropFromMarks_queueOnly c e.id _)
    refine ⟨⟨queueLaw_cardStable.withdrawn c e s mem left h.queue, h.run.of_reqs hframe.engine e.id (del e.reqs (bitOf c)) (dropFromMarks_queue _ _ _).1, ?_, ?_⟩,
      ho.of_eq hframe.engine hframe.port.sameOpen⟩
    · rw [hframe.front, hframe.engine]
      exact h.laser
    · rw [hframe.shelf, hframe.engine]
      exact h.held
  | cancelWaiting e mem waits =>
    exact ⟨h.leaves mem (isWaiting_iff.mpr waits) _ _ _,
      ho.of_eq (leaveQueue_queueOnly _ _ _ _ _).engine (leaveQueue_queueOnly _ _ _ _ _).port.sameOpen⟩
  | cancelRunning e acq mem runs stops =>
    exact (h.cancels mem runs stops _ _).handsOut (openLaw_of_not_busy (by rw [(leaveQueue_queueOnly _ _ _ _ _).engine]; simp; rfl))
  | define r d => exact h.defines ho c r d
  | delete r => exact h.deletes ho c r
  | holds r x => exact h.holds ho c r x
  | window i d w => exact h.edits ho i w
  | setClock => exact hstays ⟨h, ho⟩ rfl rfl rfl rfl (sameOpen_of_eq rfl rfl rfl)
  | startClock => exact hstays ⟨h, ho⟩ rfl rfl rfl rfl (sameOpen_of_eq rfl rfl rfl)
  | setAndStart set stopped ih => exact hstays ih rfl rfl rfl rfl (sameOpen_of_eq rfl rfl rfl)
  | stopClock runs =>
    have hu := hstays (v := logWrite (.clock c .stopped) { s with clock := { s.clock with running := false } }) ⟨h, ho⟩
      rfl rfl rfl rfl (sameOpen_of_eq rfl rfl rfl)
    refine hu.1.changes hu.2 _ fun w _ _ => ?_
    rw [mapTable_getFin]
    rfl
  | thresholdReached set ih => exact hstays ih rfl rfl rfl rfl (sameOpen_of_eq rfl rfl rfl)
  | markOpens free waits =>
    exact ⟨h.of_queue (queueLaw_cardStable.opened c s free waits h.queue) rfl rfl rfl rfl,
      ho.of_eq rfl (sameOpen_of_eq rfl rfl rfl)⟩
  | markDone | setNotices | clearNotices | readLog | clearEquipment | arm =>
    exact hstays ⟨h, ho⟩ rfl rfl rfl rfl (sameOpen_of_eq rfl rfl rfl)
  | setDevice p d values same =>
    refine hstays ⟨h, ho⟩ rfl rfl rfl rfl ⟨fun r => ?_, fun _ => rfl⟩
    unfold isClosed isHeld isBarred
    rw [same]
  | setBarred p d =>
    exact (h.of_eq (t := { s with device := d }) rfl rfl rfl rfl).reports _ fun hstop run hrun => ho hstop run hrun
  | leaveFaulted state =>
    exact (h.of_eq (t := { s with equip := none }) rfl rfl rfl rfl).leavesFaulted state

theorem shelf_of_timer (h : EngineOk s) (htimer : s.engine.timer.isSome = true) : s.shelf = none := by
  cases hs : s.shelf with
  | none => rfl
  | some k => exact absurd htimer (by rw [(h.held (by rw [hs]; rfl)).2]; decide)

theorem freshState (hq : s.queue = Queue.empty) (he : s.engine = Engine.waiting) (hoff : s.front.laser = false) :
    EngineOk s := by
  refine of_free ((QueueOk.empty (p := False) hq |> queueOk_iff.mp).1) (by rw [he]; rfl) (by rw [he]; rfl) ?_ hoff
    fun _ => by rw [he]; exact ⟨rfl, rfl⟩
  intro x hx
  rw [hq] at hx
  cases hx

/-- A reset ends with the engine waiting (R24). -/
theorem endsReset (k : ResetKind) (h : EngineOk s) (hstate : s.engine.state = .recovering) :
    EngineOk (endReset k s) ∧ OpenLaw (endReset k s) := by
  have hfree : busyState s.engine.state = false := by rw [hstate]; rfl
  have hoff := h.laser_off (by rw [hstate]; decide)
  obtain ⟨hrun, hall⟩ := h.run.waits hfree
  have hin : EngineOk (inService k s) := of_free (h.queue.of_eq rfl) hfree hrun hall hoff fun hs => by cases hs
  rw [endReset_eq]
  split
  · exact ⟨hin, openLaw_of_not_busy hfree⟩
  · exact homed hin.queue hall hoff rfl

theorem cutsOff (h : EngineOk s) (ho : OpenLaw s) : EngineOk (cutOffEnds s) ∧ OpenLaw (cutOffEnds s) := by
  have hu : EngineOk { s with trace := .empty } := h.of_eq rfl rfl rfl rfl
  unfold cutOffEnds resumeHoming
  split
  · rename_i hc
    obtain ⟨hshelf, hstate⟩ := Bool.and_eq_true_iff.mp hc
    have hstate : s.engine.state = .recovering := beq_iff_eq.mp hstate
    have hfree : busyState s.engine.state = false := by rw [hstate]; rfl
    exact homed hu.queue (h.run.waits hfree).2 (h.laser_off (by rw [hstate]; decide)) (Option.isNone_iff_eq_none.mp hshelf)
  · exact ⟨hu, ho.of_eq rfl (sameOpen_of_eq rfl rfl rfl)⟩

theorem effect {wf : Prop} (he : Effect wf s t) (h : EngineOk s) (ho : OpenLaw s) : EngineOk t ∧ OpenLaw t := by
  have hstays : ∀ {u v : State}, EngineOk u ∧ OpenLaw u → v.engine = u.engine → v.front = u.front → v.shelf = u.shelf →
      v.queue = u.queue → SameOpen u v → EngineOk v ∧ OpenLaw v := fun hu he hf hs hq hopen =>
    ⟨hu.1.of_eq he hf hs hq, hu.2.of_eq he hopen⟩
  induction he with
  | nothing s => exact ⟨h, ho⟩
  | assembly c a | sent c | turnedAway c tag code st | arrived at_ | pulseEnds s c =>
    exact hstays ⟨h, ho⟩ rfl rfl rfl rfl (sameOpen_of_eq rfl rfl rfl)
  | framed c line after ih =>
    have hu := hstays (v := setRx c .hunt _) ⟨h, ho⟩ rfl rfl rfl rfl (sameOpen_of_eq rfl rfl rfl)
    exact ih hu.1 hu.2
  | busy c tag =>
    unfold refuseBusy
    dsimp only
    split
    · exact hstays ⟨h, ho⟩ rfl rfl rfl rfl (sameOpen_of_eq rfl rfl rfl)
    · exact ⟨h, ho⟩
  | served c tag r ready may fits =>
    exact hstays (h.work (ownerOf_work r _ may fits) ho) rfl rfl rfl rfl (sameOpen_of_eq rfl rfl rfl)
  | craftReset line =>
    exact endsReset _ (freshState rfl rfl (by simp)) rfl
  | shelfReset line =>
    exact ⟨freshState rfl rfl (congrArg FrontEnd.laser (beginReset_front _)), openLaw_of_not_busy rfl⟩
  | powerOnHeld line => exact ⟨freshState rfl rfl (congrArg FrontEnd.laser (powerLoss_front _)), openLaw_of_not_busy rfl⟩
  | release k line => exact h.endsReset k (h.held (by rw [line]; rfl)).1
  | powerOn line => exact endsReset _ (freshState rfl rfl (congrArg FrontEnd.laser (powerLoss_front _))) rfl
  | settled p state route =>
    have hbusy : busyState (State.engine _).state = true := congrArg busyState state
    refine ⟨h.moved hbusy rfl rfl rfl rfl rfl fun hl => ?_, fun _ run hrun => ho (congrArg canStop state) run hrun⟩
    exact absurd (h.laser hl).1 (by rw [state]; decide)
  | homed state timer =>
    have hfree : busyState (State.engine _).state = false := congrArg busyState state
    exact concluded rfl (h.queue.of_eq rfl) (h.run.waits hfree).2 (h.laser_off (by rw [state]; decide)) (h.shelf_of_timer timer)
  | stuck state =>
    obtain ⟨hq, hall, hoff, hshelf⟩ := h.finished (congrArg busyState state) (h.laser_off (by rw [state]; decide))
      .switchStuck (some .switchStuck) none (.inl rfl)
    exact homed hq hall hoff hshelf
  | homeFailed state timer =>
    have hfree : busyState (State.engine _).state = false := congrArg busyState state
    exact freed (s := equipError .homeFailed none _) rfl (h.queue.of_eq rfl) (h.run.waits hfree).2
      (h.laser_off (by rw [state]; decide)) (h.shelf_of_timer timer) rfl (h.run.waits hfree).1
  | @liveLight s run rec state running =>
    have hoff := h.laser_off (by rw [state]; decide)
    exact ended (s := { s with front := { s.front with checking := false, record := some rec } })
      (h.dark rfl rfl rfl hoff) (congrArg busyState state) hoff _ _ _ (.inl rfl) rfl
  | @fires s run rec state running =>
    have hoff := h.laser_off (by rw [state]; decide)
    exact fires (s := { s with front := { s.front with checking := false, record := some rec } })
      (h.dark rfl rfl rfl hoff) (ho.of_eq rfl (sameOpen_of_eq rfl rfl rfl)) state _
  | shot run samples state running =>
    have hbusy : busyState (State.engine _).state = true := congrArg busyState state
    exact ⟨h.moved hbusy hbusy rfl rfl rfl rfl h.laser, ho⟩
  | lastShot run samples state running =>
    refine ⟨h.moved (congrArg busyState state) rfl rfl rfl rfl rfl fun hl => ?_, openLaw_of_not_canStop rfl⟩
    cases hl
  | acqTimeout state =>
    exact ended (s := frontOff _) (h.dark rfl rfl rfl rfl) (congrArg busyState state) rfl _ _ _ (.inl rfl) rfl
  | @analysed s run f cells out j state running =>
    have hoff := h.laser_off (by rw [state]; decide)
    have hbusy : busyState s.engine.state = true := congrArg busyState state
    have hheld : EngineOk (holdTrace run f cells s) := h.moved hbusy hbusy rfl rfl rfl rfl fun hl =>
      absurd (hoff.symm.trans hl) (by decide)
    have hfixed : EngineFixed (holdTrace run f cells s) :=
      ⟨fun hi => absurd (state.symm.trans hi) (by decide), congrArg canStop state⟩
    exact hheld.ended hbusy hoff _ _ _ (.inr hfixed) (stateAfterStage_free _)
  | commits run f cells state running kind =>
    refine ⟨h.moved (congrArg busyState state) rfl rfl rfl rfl rfl fun hl => ?_, openLaw_of_not_canStop rfl⟩
    exact absurd (h.laser hl).1 (by rw [state]; decide)
  | nextWrite r w data run state =>
    exact hstays ⟨h, ho⟩ rfl rfl rfl rfl (sameOpen_of_eq rfl rfl rfl)
  | @captured s r w data run x state =>
    have hstand := (writeDone_stand (r.blocks.getD w 0) data s).trans (commitCapture_stand run r x _)
    refine (h.of_stand hstand).ended ?_ ?_ _ _ _ (.inl rfl) (stateAfterStage_free _)
    · rw [hstand.engine, state]
      rfl
    · rw [hstand.front]
      exact h.laser_off (by rw [state]; decide)
  | @storeError s r w data state =>
    exact ended (s := writeLost r (r.blocks.getD w 0) s) (h.of_eq rfl rfl rfl rfl) (congrArg busyState state) (h.laser_off (by rw [state]; decide)) _ _ _ (.inl rfl)
      (stateAfterStage_free _)
  | cutOffGood r w data | cutOffFailed r w data =>
    exact cutsOff (h.of_eq rfl rfl rfl rfl) (ho.of_eq rfl (sameOpen_of_eq rfl rfl rfl))
  | laserFault s =>
    exact laserFaulted (h.dark rfl rfl rfl rfl) (ho.of_eq rfl (sameOpen_of_eq rfl rfl rfl))
  | faultEnds s =>
    exact ⟨⟨h.queue, h.run, fun hl => ⟨(h.laser hl).1, rfl⟩, h.held⟩, ho.of_eq rfl (sameOpen_of_eq rfl rfl rfl)⟩
  | tick s => exact h.rolls ho

theorem step (hstep : Machine.step s = .next t) (h : EngineOk s ∧ OpenLaw s) : EngineOk t ∧ OpenLaw t :=
  step_keeps (P := fun s => EngineOk s ∧ OpenLaw s)
    (fun _ _ h => ⟨h.1.of_eq rfl rfl rfl rfl, h.2.of_eq rfl (sameOpen_of_eq rfl rfl rfl)⟩)
    (fun he h => h.1.effect he h.2) h hstep

end EngineOk

/-- Settles O12: the takes and the reports restore what a change of holds, windows or settings may have broken. -/
theorem everyStepKeepsLaserLaw : Obligations.EveryStepKeepsLaserLaw := by
  intro s t hq hrun hlaser hstep
  exact (laserLaw_iff.mpr (EngineOk.step hstep (laserLaw_iff.mp ⟨hq, hrun, hlaser⟩))).2

end Sys2Proof.Machine
end

section
/-!
No entry is eligible while the engine is IDLE (R110, R111): whatever could make one eligible is followed by the hand-out.
-/
namespace Sys2Proof.Machine

/-- The queue is in order and of defined routes: what the hand-out needs to come to an end. -/
def Orderly (s : State) : Prop := QueueLaw s ∧ EntryLaw s

theorem orderly_cardStable : CardStable Orderly where
  frame h _ _ hq hr := ⟨h.1.of_eq hq, h.2.of_eq hr hq⟩
  log b s h := ⟨queueLaw_cardStable.log b s h.1, entryLaw_cardStable.log b s h.2⟩
  raise p k s hk h := ⟨queueLaw_cardStable.raise p k s hk h.1, entryLaw_cardStable.raise p k s hk h.2⟩
  leave e out reqs c s h := ⟨queueLaw_cardStable.leave e out reqs c s h.1, h.2.left e out reqs c⟩
  runs id acq s h := ⟨queueLaw_cardStable.runs id acq s h.1, entryLaw_cardStable.runs id acq s h.2⟩
  stopped s h := ⟨queueLaw_cardStable.stopped s h.1, entryLaw_cardStable.stopped s h.2⟩
  joined who e s hw he h := ⟨queueLaw_cardStable.joined who e s hw he h.1, entryLaw_cardStable.joined who e s hw he h.2⟩
  upgraded who e s hw he h :=
    ⟨queueLaw_cardStable.upgraded who e s hw he h.1, entryLaw_cardStable.upgraded who e s hw he h.2⟩
  placed who r k cls s hw hb hl hno h :=
    ⟨queueLaw_cardStable.placed who r k cls s hw hb hl hno h.1, entryLaw_cardStable.placed who r k cls s hw hb hl hno h.2⟩
  withdrawn c e s he hleft h :=
    ⟨queueLaw_cardStable.withdrawn c e s he hleft h.1, entryLaw_cardStable.withdrawn c e s he hleft h.2⟩
  opened c s hl hw h := ⟨queueLaw_cardStable.opened c s hl hw h.1, entryLaw_cardStable.opened c s hl hw h.2⟩
  switches c p new t s hset hlim h :=
    ⟨queueLaw_cardStable.switches c p new t s hset hlim h.1, entryLaw_cardStable.switches c p new t s hset hlim h.2⟩
  cleared c p s h := ⟨queueLaw_cardStable.cleared c p s h.1, entryLaw_cardStable.cleared c p s h.2⟩
  read c s h := ⟨queueLaw_cardStable.read c s h.1, entryLaw_cardStable.read c s h.2⟩
  pulse c s h := ⟨queueLaw_cardStable.pulse c s h.1, entryLaw_cardStable.pulse c s h.2⟩
  reset s hn hl hq := ⟨queueLaw_cardStable.reset s hn hl hq, entryLaw_cardStable.reset s hn hl hq⟩
  routed r e s he h := ⟨queueLaw_cardStable.routed r e s he h.1, entryLaw_cardStable.routed r e s he h.2⟩
  deletes c r s hfree h := ⟨queueLaw_cardStable.deletes c r s hfree h.1, h.2.deleted c hfree⟩

theorem Orderly.of_eq {s t : State} (h : Orderly s) (hr : t.routes = s.routes) (hq : t.queue = s.queue) : Orderly t :=
  ⟨h.1.of_eq hq, h.2.of_eq hr hq⟩

theorem orderly_of_empty {s : State} (hq : s.queue = Queue.empty) : Orderly s := by
  refine ⟨(queueOk_iff.mp (QueueOk.empty (p := False) hq)).1, fun x hx => ?_⟩
  rw [hq] at hx
  cases hx

/-! ### What leaves nothing eligible -/

theorem idleLaw_of_not_idle {s : State} (h : s.engine.state ≠ .idle) : IdleLaw s := fun hi => absurd hi h

theorem idleLaw_of_state {s : State} {st : EngineState} (h : s.engine.state = st) (hne : st ≠ .idle) : IdleLaw s :=
  idleLaw_of_not_idle (h ▸ hne)

/-- A change that takes the engine to IDLE from nowhere, opens no route to the test and makes no entry. -/
theorem IdleLaw.of_frame {s t : State} (h : IdleLaw s) (hstate : t.engine.state = .idle → s.engine.state = .idle)
    (hopen : SameOpen s t)
    (hsub : ∀ x ∈ t.queue.entries, ∃ y ∈ s.queue.entries, x.route = y.route ∧ x.cls = y.cls ∧ x.running = y.running) :
    IdleLaw t := by
  intro hi x hx
  obtain ⟨y, hy, hroute, hcls, hrun⟩ := hsub x hx
  rw [hopen.isEligible, ← h (hstate hi) y hy]
  unfold isEligible isWaiting
  rw [hroute, hcls, hrun]

theorem IdleLaw.of_eq {s t : State} (h : IdleLaw s) (hstate : t.engine.state = .idle → s.engine.state = .idle)
    (hopen : SameOpen s t) (hq : t.queue = s.queue) : IdleLaw t :=
  h.of_frame hstate hopen fun x hx => ⟨x, hq ▸ hx, rfl, rfl, rfl⟩

theorem IdleLaw.left {s : State} (h : IdleLaw s) (e : Entry) (out : TestOutcome) (reqs : RequesterSet) (c : Option Client) :
    IdleLaw (leaveQueue e out reqs c s) := by
  have hframe := leaveQueue_queueOnly e out reqs c s
  refine h.of_frame (fun hi => hframe.engine ▸ hi) hframe.port.sameOpen fun x hx => ?_
  rw [(leaveQueue_queue e out reqs c s).1] at hx
  exact ⟨x, (List.mem_filter.mp hx).1, rfl, rfl, rfl⟩

namespace Orderly

variable {s t : State}

theorem handsOut (h : Orderly s) : IdleLaw (handOut s) := (handOut_handsOut h.1 h.2).idle

theorem arbitrates (h : Orderly s) : IdleLaw (arbitrate s) := handsOut (preempt_keeps orderly_cardStable.stopped s h)

theorem covers (h : Orderly s) : IdleLaw (coverageReport s) :=
  handsOut (coverageStop_keeps orderly_cardStable.stopped h)

theorem reports (h : Orderly s) (was : RouteNo → Bool) : IdleLaw (routeReport was s) :=
  arbitrates (routeStop_keeps orderly_cardStable.stopped was h)

theorem concludes (h : Orderly s) (st : EngineState) : IdleLaw (concludeIn st s) := handsOut (h.of_eq rfl rfl)

theorem homes (h : Orderly s) : IdleLaw (homeSwitch s) := by
  unfold homeSwitch
  split
  · exact handsOut (h.of_eq rfl rfl)
  · exact idleLaw_of_state (st := .recovering) rfl (by decide)

theorem asks (h : Orderly s) (hidle : IdleLaw s) {who : Nat} (hwho : IsRequester who) (r : RouteNo) (k : TestKind)
    (cls : TestClass) : IdleLaw (askTest who r k cls s).2 := by
  rcases askTest_placed who r k cls s with h' | ⟨hb, -, ⟨e, hm, hw, -, -, h'⟩ | ⟨hl, ht, h'⟩⟩ <;> rw [h']
  · exact hidle
  · rcases joinEntry_cases who cls e s with ⟨-, k⟩ | ⟨-, k⟩ <;> rw [k]
    · exact arbitrates (orderly_cardStable.upgraded who e s hwho hm h)
    · refine hidle.of_frame (fun hi => hi) (sameOpen_of_eq rfl rfl rfl) fun x hx => ?_
      obtain ⟨y, hy, rfl⟩ := List.mem_map.mp hx
      split
      · exact ⟨e, hm, rfl, rfl, rfl⟩
      · exact ⟨y, hy, rfl, rfl, rfl⟩
  · have hp := orderly_cardStable.placed who r k cls s hwho hb hl ht h
    rcases newEntry_cases (freshId s.queue.entries 33 s.queue.counter) who r k cls s with ⟨-, k⟩ | ⟨-, k⟩ <;> rw [k]
    · exact arbitrates hp
    · exact handsOut hp

theorem changes (h : Orderly s) (hidle : IdleLaw s) (cause : CloseCause) {new : Vector Window 8}
    (hroutes : ∀ w : WindowNo, (new[w].remaining ≠ none ↔ s.windows[w].remaining ≠ none) →
      s.windows[w].remaining ≠ none → new[w].settings.routes = s.windows[w].settings.routes) :
    IdleLaw (changeWindows cause new s) := by
  rcases changeWindows_cases cause new s with ⟨hnil, k⟩ | ⟨-, k⟩ <;> rw [k]
  · have hsame := windowChanges_eq_nil_iff.mp hnil
    exact hidle.of_eq (fun hi => hi) (sameOpen_setWindows fun w => ⟨hsame w, hroutes w (hsame w)⟩) rfl
  · have hstand := (logWrites_stand (windowChanges cause s.windows new) { s with windows := new }).trans
      (raiseTo_stand (fun _ => true) .window _)
    have hroutes := ((logWrites_queueOnly (windowChanges cause s.windows new) { s with windows := new }).trans
      (raiseTo_queueOnly (fun _ => true) .window _)).routes
    exact covers (h.of_eq hroutes hstand.queue)

theorem holds (h : Orderly s) (hidle : IdleLaw s) (c : Client) (r : RouteNo) (x : HoldSet) :
    IdleLaw (changeHolds c r x s) := by
  have hstand := (setRoute_stand r { s.routes[r] with holds := x } s).trans (logWrite_stand (.holdChange r c x) _)
  have hset := orderly_cardStable.log (.holdChange r c x) _ (orderly_cardStable.routed r { s.routes[r] with holds := x } s id h)
  rcases changeHolds_cases c r x s with ⟨-, k⟩ | ⟨⟨hs, hx⟩, k⟩ <;> rw [k]
  · exact reports hset _
  · exact hidle.of_eq (fun hi => hstand.engine ▸ hi)
      ((sameOpen_setRoute (iff_of_false hx hs)).trans (logWrite_queueOnly _ _).port.sameOpen) hstand.queue

theorem edits (h : Orderly s) (hidle : IdleLaw s) (i : WindowNo) (w : WindowSettings) : IdleLaw (acceptWindow i w s) := by
  rcases acceptWindow_cases i w s with ⟨hcase, k⟩ | ⟨-, k⟩ | ⟨hcase, k⟩ <;> rw [k]
  · exact h.changes hidle _ (editedWindows_closing hcase.2)
  · exact covers (h.of_eq rfl rfl)
  · exact hidle.of_eq (fun hi => hi) (sameOpen_editedWindows hcase) rfl

theorem rolls (h : Orderly s) (hidle : IdleLaw s) (hok : EngineOk s) : IdleLaw (tickClock s) := by
  rcases tickClock_cases s with ⟨-, k⟩ | ⟨-, -, k⟩ | ⟨-, -, hshelf, k⟩ | ⟨-, -, -, k⟩ <;> rw [k]
  · exact hidle
  · exact hidle.of_eq (fun hi => hi) (sameOpen_of_eq rfl rfl rfl) rfl
  · exact idleLaw_of_state (hok.held (Option.isSome_iff_ne_none.mpr hshelf)).1 (by decide)
  · exact changes (s := { s with clock := { s.clock with now := nextSecond s.clock.now } }) (h.of_eq rfl rfl)
      (hidle.of_eq (fun hi => hi) (sameOpen_of_eq rfl rfl rfl) rfl) _
      fun w _ _ => congrArg WindowSettings.routes (rolledWindows_settings _ s w)

theorem leavesFaulted (h : Orderly s) : IdleLaw (leaveFaulted s) := by
  unfold leaveFaulted
  split
  · exact idleLaw_of_state (st := .recovering) rfl (by decide)
  · exact homes h

theorem faulted (h : Orderly s) : IdleLaw (faultEngine s) := by
  rcases faultEngine_cases s with ⟨hstop, k⟩ | ⟨hstate, k⟩ | ⟨-, k⟩ <;> rw [k]
  · exact concludes (orderly_cardStable.finishes (s := frontOff s) _ _ _ _ (h.of_eq rfl rfl)) _
  · refine idleLaw_of_not_idle ?_
    show s.engine.state ≠ .idle
    rcases hstate with hs | hs <;> rw [hs] <;> decide
  · exact idleLaw_of_state (st := .faulted) rfl (by decide)

theorem laserFaulted (h : Orderly s) (hidle : IdleLaw s) : IdleLaw (laserFault s) := by
  rcases laserFault_cases s with ⟨-, k⟩ | ⟨-, k⟩ <;> rw [k]
  · exact hidle.of_eq (fun hi => hi) (sameOpen_of_eq rfl rfl rfl) rfl
  · exact faulted (h.of_eq rfl rfl)

theorem endsReset (h : Orderly s) (k : ResetKind) (hstate : s.engine.state ≠ .idle) : IdleLaw (endReset k s) := by
  rw [endReset_eq]
  split
  · exact idleLaw_of_not_idle hstate
  · exact homes (h.of_eq rfl rfl)

theorem cutsOff (h : Orderly s) (hidle : IdleLaw s) : IdleLaw (cutOffEnds s) := by
  unfold cutOffEnds resumeHoming
  split
  · exact homes (h.of_eq rfl rfl)
  · exact hidle.of_eq (fun hi => hi) (sameOpen_of_eq rfl rfl rfl) rfl

end Orderly

/-! ### Every request and every event -/

namespace IdleLaw

variable {s t : State}

theorem work {c : Client} {wf : Prop} {code : Nat} (hw : Work c wf code s t) (h : Orderly s) (hidle : IdleLaw s) :
    IdleLaw t := by
  have hstays : ∀ {u v : State}, IdleLaw u → v.engine = u.engine → v.queue = u.queue → SameOpen u v → IdleLaw v :=
    fun hu he hq hopen => hu.of_eq (fun hi => he ▸ hi) hopen hq
  induction hw with
  | nothing => exact hidle
  | test r k cl => exact h.asks hidle (CardStable.bitOf_lt_five c) r k cl
  | testGone r k cl =>
    exact hstays (h.asks hidle (CardStable.bitOf_lt_five c) r k cl) rfl rfl (sameOpen_of_eq rfl rfl rfl)
  | cancelKept e mem left =>
    have hframe := (setEntries_queueOnly (s.queue.entries.map fun x =>
      if x.id = e.id then { x with reqs := del e.reqs (bitOf c) } else x) s).trans (dropFromMarks_queueOnly c e.id _)
    refine hidle.of_frame (fun hi => hframe.engine ▸ hi) hframe.port.sameOpen fun x hx => ?_
    rw [(dropFromMarks_queue _ _ _).1] at hx
    obtain ⟨y, hy, rfl⟩ := List.mem_map.mp hx
    refine ⟨y, hy, ?_⟩
    split <;> exact ⟨rfl, rfl, rfl⟩
  | cancelWaiting e mem waits => exact hidle.left e _ _ _
  | cancelRunning e acq mem runs stops =>
    refine Orderly.handsOut (orderly_cardStable.leave _ _ _ _ _ ?_)
    exact h.of_eq (stopAcquisition_portOnly s).routes (stopAcquisition_queue s)
  | define r d =>
    have hsame : SameOpen s (setRoute r (definedEntry s.routes[r] d) s) := sameOpen_setRoute Iff.rfl
    have hstand := acceptDefinition_stand c r d s
    exact hstays hidle hstand.engine hstand.queue (hsame.trans (acceptDefinition_finishOnly c r d s).sameOpen)
  | delete r =>
    have hsame : SameOpen s (setRoute r (deletedEntry s.routes[r]) s) := sameOpen_setRoute Iff.rfl
    have hstand := emptiedRoute_stand c r s
    have hengine : (acceptDeletion c r s).engine = s.engine :=
      (removeWaiting_queueOnly r (emptiedRoute c r s)).engine.trans hstand.engine
    refine hidle.of_frame (fun hi => hengine ▸ hi) (hsame.trans (acceptDeletion_finishOnly c r s).sameOpen) fun x hx => ?_
    exact ⟨x, hstand.queue ▸ (mem_removed hx).1, rfl, rfl, rfl⟩
  | holds r x => exact h.holds hidle c r x
  | window i d w => exact h.edits hidle i w
  | setClock => exact hstays hidle rfl rfl (sameOpen_of_eq rfl rfl rfl)
  | startClock => exact hstays hidle rfl rfl (sameOpen_of_eq rfl rfl rfl)
  | setAndStart set stopped ih => exact hstays ih rfl rfl (sameOpen_of_eq rfl rfl rfl)
  | stopClock runs =>
    have hu := hstays (v := logWrite (.clock c .stopped) { s with clock := { s.clock with running := false } }) hidle
      rfl rfl (sameOpen_of_eq rfl rfl rfl)
    have ho : Orderly (logWrite (.clock c .stopped) { s with clock := { s.clock with running := false } }) := h.of_eq rfl rfl
    refine ho.changes hu _ fun w _ _ => ?_
    rw [mapTable_getFin]
    rfl
  | thresholdReached set ih => exact hstays ih rfl rfl (sameOpen_of_eq rfl rfl rfl)
  | markOpens free waits => exact hidle.of_frame (fun hi => hi) (sameOpen_of_eq rfl rfl rfl) fun x hx => ⟨x, hx, rfl, rfl, rfl⟩
  | markDone | setNotices | clearNotices | readLog | clearEquipment | arm =>
    exact hstays hidle rfl rfl (sameOpen_of_eq rfl rfl rfl)
  | setDevice p d values same =>
    refine hstays hidle rfl rfl ⟨fun r => ?_, fun _ => rfl⟩
    unfold isClosed isHeld isBarred
    rw [same]
  | setBarred p d =>
    have ho : Orderly { s with device := d } := h.of_eq rfl rfl
    exact ho.reports _
  | leaveFaulted state =>
    have ho : Orderly { s with equip := none } := h.of_eq rfl rfl
    exact ho.leavesFaulted

theorem effect {wf : Prop} (he : Effect wf s t) (h : Orderly s) (hok : EngineOk s) (hidle : IdleLaw s) : IdleLaw t := by
  have hstays : ∀ {u v : State}, IdleLaw u → v.engine = u.engine → v.queue = u.queue → SameOpen u v → IdleLaw v :=
    fun hu he hq hopen => hu.of_eq (fun hi => he ▸ hi) hopen hq
  induction he with
  | nothing s => exact hidle
  | assembly c a | sent c | turnedAway c tag code st | arrived at_ | pulseEnds s c | nextWrite | faultEnds =>
    exact hstays hidle rfl rfl (sameOpen_of_eq rfl rfl rfl)
  | framed c line after ih =>
    exact ih (h.of_eq rfl rfl) (hok.of_eq rfl rfl rfl rfl) (hstays hidle rfl rfl (sameOpen_of_eq rfl rfl rfl))
  | busy c tag =>
    unfold refuseBusy
    dsimp only
    split
    · exact hstays hidle rfl rfl (sameOpen_of_eq rfl rfl rfl)
    · exact hidle
  | served c tag r ready may fits =>
    exact hstays (work (ownerOf_work r _ may fits) h hidle) rfl rfl (sameOpen_of_eq rfl rfl rfl)
  | craftReset line => exact (orderly_of_empty rfl).endsReset _ (by simp; decide)
  | shelfReset line => exact idleLaw_of_state (st := .recovering) rfl (by decide)
  | powerOnHeld line => exact idleLaw_of_state (st := .recovering) rfl (by decide)
  | release k line =>
    have hstate := (hok.held (by rw [line]; rfl)).1
    exact h.endsReset k (by rw [hstate]; decide)
  | powerOn line => exact (orderly_of_empty rfl).endsReset _ (by simp; decide)
  | settled p state route => exact idleLaw_of_state (st := .liveCheck) rfl (by decide)
  | @homed s state timer =>
    have ho : Orderly { s with switch := .standing .home } := h.of_eq rfl rfl
    exact ho.concludes _
  | stuck state => exact Orderly.homes (orderly_cardStable.finishes _ _ _ _ h)
  | homeFailed state timer => exact idleLaw_of_state (st := .faulted) rfl (by decide)
  | @liveLight s run rec state running =>
    exact Orderly.concludes (orderly_cardStable.finishes (s := { s with front := { s.front with
      checking := false, record := some rec } }) _ _ _ _ (h.of_eq rfl rfl)) _
  | @fires s run rec state running =>
    rcases startFiring_cases run.settings.len { s with front := { s.front with checking := false, record := some rec } } with
      ⟨-, k⟩ | ⟨-, k⟩ <;> rw [k]
    · exact idleLaw_of_state (st := .firing) rfl (by decide)
    · exact Orderly.laserFaulted (h.of_eq rfl rfl) (idleLaw_of_state (st := .firing) rfl (by decide))
  | shot run samples state running => exact idleLaw_of_state (st := .firing) state (by decide)
  | lastShot run samples state running => exact idleLaw_of_state (st := .analysing) rfl (by decide)
  | @acqTimeout s state =>
    exact Orderly.concludes (orderly_cardStable.finishes (s := frontOff s) _ _ _ _ (h.of_eq rfl rfl)) _
  | @analysed s run f cells out j state running =>
    exact Orderly.concludes (orderly_cardStable.finishes (s := holdTrace run f cells s) _ _ _ _ (h.of_eq rfl rfl)) _
  | commits run f cells state running kind => exact idleLaw_of_state (st := .committing) rfl (by decide)
  | @captured s r w data run x state =>
    exact Orderly.concludes (orderly_cardStable.finishes _ _ _ _
      (orderly_cardStable.commits _ _ _ (h.of_eq (t := writeDone (r.blocks.getD w 0) data s) rfl rfl))) _
  | @storeError s r w data state =>
    exact Orderly.concludes (orderly_cardStable.finishes (s := writeLost r (r.blocks.getD w 0) s) _ _ _ _ (h.of_eq rfl rfl)) _
  | cutOffGood r w data | cutOffFailed r w data =>
    exact Orderly.cutsOff (h.of_eq rfl rfl) (hstays hidle rfl rfl (sameOpen_of_eq rfl rfl rfl))
  | laserFault s =>
    exact Orderly.laserFaulted (h.of_eq rfl rfl) (hstays hidle rfl rfl (sameOpen_of_eq rfl rfl rfl))
  | tick s => exact h.rolls hidle hok

end IdleLaw

/-- Settles O13: each effect that could leave the IDLE engine an eligible entry ends with the hand-out. -/
theorem everyStepKeepsIdleLaw : Obligations.EveryStepKeepsIdleLaw := by
  intro s t hq hrun hlaser hentry hidle hstep
  refine (step_keeps (P := fun s => Orderly s ∧ (EngineOk s ∧ OpenLaw s) ∧ IdleLaw s) (fun u rest h => ?_) (fun he h => ?_)
    ⟨⟨hq, hentry⟩, laserLaw_iff.mp ⟨hq, hrun, hlaser⟩, hidle⟩ hstep).2.2
  · obtain ⟨ho, ⟨hok, hopen⟩, hidle⟩ := h
    exact ⟨ho.of_eq rfl rfl, ⟨hok.of_eq rfl rfl rfl rfl, hopen.of_eq rfl (sameOpen_of_eq rfl rfl rfl)⟩,
      hidle.of_eq (fun hi => hi) (sameOpen_of_eq rfl rfl rfl) rfl⟩
  · obtain ⟨ho, ⟨hok, hopen⟩, hidle⟩ := h
    exact ⟨orderly_cardStable.effect he ho, hok.effect he hopen, hidle.effect he ho hok⟩

end Sys2Proof.Machine
end

section
/-!
The baseline blocks (R85): each of the 1,024 in one place, counted; what each change of the store keeps.
-/
namespace Sys2Proof.Machine

/-! ### The places of a block -/

/-- In how many places block `x` is (R85). -/
def places (s : State) (x : Nat) : Nat :=
  s.store.free.count x + s.store.bad.count x + (listedBlocks s).count x + (reservedBlocks s).count x

theorem count_range (n x : Nat) : (List.range n).count x = if x < n then 1 else 0 := by
  split
  · exact List.count_eq_one_of_mem List.nodup_range (List.mem_range.mpr ‹_›)
  · exact List.count_eq_zero_of_not_mem fun h => absurd (List.mem_range.mp h) ‹_›

theorem blockLaw_iff {s : State} :
    BlockLaw s ↔ (∀ x, places s x = if x < 1024 then 1 else 0) ∧ s.store.free.Pairwise (· < ·) := by
  unfold BlockLaw places
  rw [List.perm_iff_count]
  simp only [List.count_append, count_range]

theorem BlockLaw.places_eq {s : State} (h : BlockLaw s) (x : Nat) : places s x = if x < 1024 then 1 else 0 :=
  (blockLaw_iff.mp h).1 x

theorem BlockLaw.places_le {s : State} (h : BlockLaw s) (x : Nat) : places s x ≤ 1 := by
  rw [h.places_eq]
  split <;> decide

/-- The pool in order and every block in as many places as before. -/
theorem BlockLaw.of_places {s t : State} (h : BlockLaw s) (hsorted : t.store.free.Pairwise (· < ·))
    (hplaces : ∀ x, places t x = places s x) : BlockLaw t :=
  blockLaw_iff.mpr ⟨fun x => (hplaces x).trans (h.places_eq x), hsorted⟩

theorem BlockLaw.of_eq {s t : State} (h : BlockLaw s) (hs : t.store = s.store) (hr : t.routes = s.routes) : BlockLaw t := by
  unfold BlockLaw reservedBlocks listedBlocks
  rw [hs, hr]
  exact h

theorem count_giveBack {bs free : List Nat} (h : ∀ x, bs.count x + free.count x ≤ 1) (x : Nat) :
    (giveBack bs free).count x = bs.count x + free.count x := by
  have hnodup : (bs ++ free).Nodup := List.nodup_iff_count_le_one.mpr fun x => by
    rw [List.count_append]
    exact h x
  rw [(giveBack_perm bs free hnodup).count_eq, List.count_append]

theorem count_insertNumber {b : Nat} {l : List Nat} (h : b ∉ l) (x : Nat) :
    (insertNumber b l).count x = (if x = b then 1 else 0) + l.count x := by
  rw [(insertNumber_perm h).count_eq, List.count_cons]
  by_cases hx : x = b
  · simp [hx, add_comm]
  · simp [hx, show ¬b = x from fun e => hx e.symm]

/-! ### The block lists of the routes -/

theorem listedBlocks_eq (s : State) : listedBlocks s = s.routes.toList.flatMap baselineBlocks := rfl

theorem count_flatMap_set {α : Type} (f : α → List Nat) (x : Nat) (a : α) :
    ∀ (l : List α) (i : Nat) (h : i < l.length),
      ((l.set i a).flatMap f).count x + (f l[i]).count x = (l.flatMap f).count x + (f a).count x
  | [], _, h => absurd h (Nat.not_lt_zero _)
  | y :: l, 0, _ => by
    simp only [List.set_cons_zero, List.flatMap_cons, List.count_append, List.getElem_cons_zero]
    omega
  | y :: l, i + 1, h => by
    have ih := count_flatMap_set f x a l i (Nat.lt_of_succ_lt_succ h)
    simp only [List.set_cons_succ, List.flatMap_cons, List.count_append, List.getElem_cons_succ]
    omega

/-- A route's block list is replaced by that of its new entry. -/
theorem count_listedBlocks_setRoute (r : RouteNo) (e : RouteEntry) (s : State) (x : Nat) :
    (listedBlocks (setRoute r e s)).count x + (baselineBlocks s.routes[r]).count x
      = (listedBlocks s).count x + (baselineBlocks e).count x := by
  have hlist : (setRoute r e s).routes.toList = s.routes.toList.set r e := Vector.toList_set r.isLt
  have hget : s.routes.toList[r.val]'(by simp) = s.routes[r] := Vector.getElem_toList ..
  rw [listedBlocks_eq, listedBlocks_eq, hlist, ← hget]
  exact count_flatMap_set baselineBlocks x e s.routes.toList r (by simp)

/-! ### The changes of the store -/

theorem reservedBlocks_some {s : State} {r : Reservation} (h : s.store.resv = some r) : reservedBlocks s = r.blocks := by
  unfold reservedBlocks
  rw [h]

theorem reservedBlocks_none {s : State} (h : s.store.resv = none) : reservedBlocks s = [] := by
  unfold reservedBlocks
  rw [h]

namespace BlockLaw

variable {s t : State}

/-- The reservation goes back whole. -/
theorem returned (h : BlockLaw s) {r : Reservation} (hr : s.store.resv = some r)
    (hfree : t.store.free = giveBack r.blocks s.store.free) (hbad : t.store.bad = s.store.bad) (hresv : t.store.resv = none)
    (hroutes : t.routes = s.routes) : BlockLaw t := by
  have hle := h.places_le
  have hlisted : listedBlocks t = listedBlocks s := by rw [listedBlocks_eq, listedBlocks_eq, hroutes]
  unfold places at hle
  rw [reservedBlocks_some hr] at hle
  refine h.of_places ?_ fun x => ?_
  · rw [hfree]
    exact giveBack_sorted _ _ h.2
  · unfold places
    rw [hfree, hbad, hlisted, reservedBlocks_none hresv, reservedBlocks_some hr,
      count_giveBack fun x => by have := hle x; omega]
    simp only [List.count_nil]
    omega

theorem returnReservation (h : BlockLaw s) : BlockLaw (returnReservation s) := by
  rcases returnReservation_eq s with k | ⟨r, hr, -, k⟩ <;> rw [k]
  · exact h
  · exact h.returned hr rfl rfl rfl rfl

/-- The lowest-numbered free blocks are reserved (R86, R87). -/
theorem reserved (h : BlockLaw s) (hnone : s.store.resv = none) {n : Nat} {r : Reservation}
    (hblocks : r.blocks = s.store.free.take n) (hfree : t.store.free = s.store.free.drop n)
    (hbad : t.store.bad = s.store.bad) (hresv : t.store.resv = some r) (hroutes : t.routes = s.routes) : BlockLaw t := by
  have hlisted : listedBlocks t = listedBlocks s := by rw [listedBlocks_eq, listedBlocks_eq, hroutes]
  refine h.of_places ?_ fun x => ?_
  · rw [hfree]
    exact h.2.sublist (List.drop_sublist _ _)
  · have hsplit : (s.store.free.take n).count x + (s.store.free.drop n).count x = s.store.free.count x := by
      rw [← List.count_append, List.take_append_drop]
    unfold places
    rw [hfree, hbad, hlisted, reservedBlocks_some hresv, reservedBlocks_none hnone, hblocks]
    simp only [List.count_nil]
    omega

/-- A route takes an entry with the same block list. -/
theorem setRoute (h : BlockLaw s) (r : RouteNo) {e : RouteEntry} (he : baselineBlocks e = baselineBlocks s.routes[r]) :
    BlockLaw (setRoute r e s) := by
  refine h.of_places h.2 fun x => ?_
  have hcount := count_listedBlocks_setRoute r e s x
  rw [he] at hcount
  unfold places
  rw [setRoute_store, show reservedBlocks (Machine.setRoute r e s) = reservedBlocks s from rfl]
  omega

/-- A route loses its block list to the free pool (R94). -/
theorem discarded (h : BlockLaw s) (r : RouteNo) {e : RouteEntry} (he : baselineBlocks e = [])
    (hfree : t.store.free = giveBack (baselineBlocks s.routes[r]) s.store.free) (hbad : t.store.bad = s.store.bad)
    (hresv : t.store.resv = s.store.resv) (hroutes : t.routes = (Machine.setRoute r e s).routes) : BlockLaw t := by
  have hle := h.places_le
  have hreserved : reservedBlocks t = reservedBlocks s := by
    unfold reservedBlocks
    rw [hresv]
  have hlisted : listedBlocks t = listedBlocks (Machine.setRoute r e s) := by rw [listedBlocks_eq, listedBlocks_eq, hroutes]
  have hcount := count_listedBlocks_setRoute r e s
  rw [he] at hcount
  simp only [List.count_nil] at hcount
  unfold places at hle
  refine h.of_places ?_ fun x => ?_
  · rw [hfree]
    exact giveBack_sorted _ _ h.2
  · unfold places
    rw [hfree, hbad, hlisted, hreserved, count_giveBack fun x => by have := hle x; have := hcount x; omega]
    have := hcount x
    omega

/-- The reservation becomes the route's block list and the old one goes free (R91). -/
theorem committed (h : BlockLaw s) (r : RouteNo) {e : RouteEntry} {x : Reservation} (hx : s.store.resv = some x)
    (he : baselineBlocks e = x.blocks) (hfree : t.store.free = giveBack (baselineBlocks s.routes[r]) s.store.free)
    (hbad : t.store.bad = s.store.bad) (hresv : t.store.resv = none)
    (hroutes : t.routes = (Machine.setRoute r e s).routes) : BlockLaw t := by
  have hle := h.places_le
  have hlisted : listedBlocks t = listedBlocks (Machine.setRoute r e s) := by rw [listedBlocks_eq, listedBlocks_eq, hroutes]
  have hcount := count_listedBlocks_setRoute r e s
  rw [he] at hcount
  unfold places at hle
  rw [reservedBlocks_some hx] at hle
  refine h.of_places ?_ fun y => ?_
  · rw [hfree]
    exact giveBack_sorted _ _ h.2
  · unfold places
    rw [hfree, hbad, hlisted, reservedBlocks_none hresv, reservedBlocks_some hx,
      count_giveBack fun x => by have := hle x; have := hcount x; omega]
    have := hcount y
    simp only [List.count_nil]
    omega

/-- A failed write puts its block into the bad set; the rest of the reservation goes free (R92). -/
theorem lost (h : BlockLaw s) {r : Reservation} (hr : s.store.resv = some r) {b : Nat} (hb : b ∈ r.blocks)
    (hfree : t.store.free = giveBack (r.blocks.filter (· != b)) s.store.free)
    (hbad : t.store.bad = insertNumber b s.store.bad) (hresv : t.store.resv = none) (hroutes : t.routes = s.routes) :
    BlockLaw t := by
  have hle := h.places_le
  have hlisted : listedBlocks t = listedBlocks s := by rw [listedBlocks_eq, listedBlocks_eq, hroutes]
  unfold places at hle
  rw [reservedBlocks_some hr] at hle
  have hpos : 0 < r.blocks.count b := List.count_pos_iff.mpr hb
  have hrest : ∀ x, (r.blocks.filter (· != b)).count x = if x = b then 0 else r.blocks.count x := fun x => by
    split
    · rename_i hxb
      exact List.count_eq_zero_of_not_mem fun hm => by simp [hxb] at hm
    · rename_i hxb
      exact List.count_filter (by simpa using hxb)
  have hnot : b ∉ s.store.bad := fun hm => by
    have := List.count_pos_iff.mpr hm
    have := hle b
    omega
  refine h.of_places ?_ fun x => ?_
  · rw [hfree]
    exact giveBack_sorted _ _ h.2
  · have hgive : ∀ x, (r.blocks.filter (· != b)).count x + s.store.free.count x ≤ 1 := fun x => by
      have := hle x
      have := hrest x
      split at this <;> omega
    unfold places
    rw [hfree, hbad, hlisted, reservedBlocks_none hresv, reservedBlocks_some hr, count_giveBack hgive,
      count_insertNumber hnot, hrest]
    simp only [List.count_nil]
    by_cases hxb : x = b
    · subst hxb
      have := hle x
      simp only [if_true]
      omega
    · simp only [if_neg hxb]
      omega

/-- The pool is rebuilt of the blocks that are in no list and not bad (R97). -/
theorem rebuilt (h : BlockLaw s) (hfree : t.store.free = rebuiltPool t) (hbad : t.store.bad = s.store.bad)
    (hresv : t.store.resv = none) (hroutes : t.routes = s.routes) : BlockLaw t := by
  have hlisted : listedBlocks t = listedBlocks s := by rw [listedBlocks_eq, listedBlocks_eq, hroutes]
  have hplaces := h.places_eq
  unfold places at hplaces
  refine blockLaw_iff.mpr ⟨fun x => ?_, ?_⟩
  · unfold places
    rw [hfree, rebuiltPool, hlisted, hbad, reservedBlocks_none hresv]
    have hx := hplaces x
    by_cases hin : x ∈ listedBlocks s ∨ x ∈ s.store.bad
    · have hzero : ((List.range 1024).filter fun b => !(listedBlocks s).contains b && !s.store.bad.contains b).count x = 0 :=
        List.count_eq_zero_of_not_mem fun hm => by
          simp only [List.mem_filter, Bool.and_eq_true, Bool.not_eq_true', List.contains_eq_mem, decide_eq_false_iff_not] at hm
          exact hin.elim hm.2.1 hm.2.2
      have hpos : 0 < (listedBlocks s).count x + s.store.bad.count x := by
        rcases hin with hm | hm
        · have := List.count_pos_iff.mpr hm
          omega
        · have := List.count_pos_iff.mpr hm
          omega
      rw [hzero, List.count_nil, ← hx]
      have hle := hplaces x ▸ (show (if x < 1024 then 1 else 0) ≤ 1 by split <;> decide)
      omega
    · obtain ⟨hl, hb⟩ := not_or.mp hin
      rw [List.count_filter (by simp [hl, hb]), count_range, List.count_eq_zero_of_not_mem hl, List.count_eq_zero_of_not_mem hb,
        List.count_nil, Nat.add_zero]
  · rw [hfree]
    exact List.pairwise_lt_range.sublist List.filter_sublist

end BlockLaw

end Sys2Proof.Machine
end

section
/-!
Each block in one place and the reservation in the states of Table 5-2: every command keeps both (R85, R24, R96).
-/
namespace Sys2Proof.Machine

/-! ### Where a reservation stands -/

/-- A reservation with a write in flight, and the engine states in which that can be (R24, R96). -/
theorem StoreLaw.of_writing {s : State} (h : StoreLaw s) {r : Reservation} (hr : s.store.resv = some r) {w : Nat}
    {data : List Nat} (hp : r.phase = .writing w data) :
    w < r.blocks.length ∧ (s.engine.state = .committing ∨ (s.engine.state = .recovering ∧ s.engine.timer = none)
      ∨ s.engine.state = .faulted) := by
  have hphase := (h.1 r hr).2
  rw [hp] at hphase
  exact hphase

theorem StoreLaw.of_held {s : State} (h : StoreLaw s) {r : Reservation} (hr : s.store.resv = some r) (hp : r.phase = .held) :
    s.engine.running.isSome = true ∧ (s.engine.state = .switching ∨ s.engine.state = .liveCheck
      ∨ s.engine.state = .firing ∨ s.engine.state = .analysing) := by
  have hphase := (h.1 r hr).2
  rw [hp] at hphase
  exact hphase

/-- The engine is between the take and the end of ANALYSING. -/
def holdsState (st : EngineState) : Bool := canStop st || st == .analysing

theorem holdsState_iff {st : EngineState} :
    holdsState st = true ↔ st = .switching ∨ st = .liveCheck ∨ st = .firing ∨ st = .analysing := by
  cases st <;> simp [holdsState, canStop]

/-- In SWITCHING to ANALYSING a reservation is HELD; elsewhere it is not. -/
theorem StoreLaw.phase {s : State} (h : StoreLaw s) {r : Reservation} (hr : s.store.resv = some r) :
    r.phase = .held ↔ holdsState s.engine.state = true := by
  constructor
  · intro hp
    exact holdsState_iff.mpr (h.of_held hr hp).2
  · intro hstate
    cases hp : r.phase with
    | held => rfl
    | writing w data =>
      obtain ⟨-, hw⟩ := h.of_writing hr hp
      rcases hw with hw | ⟨hw, -⟩ | hw <;> rw [hw] at hstate <;> cases hstate

theorem StoreLaw.returned {s : State} (h : StoreLaw s) (hstate : holdsState s.engine.state = true) :
    (returnReservation s).store.resv = none := by
  unfold returnReservation
  cases hr : s.store.resv with
  | none => exact hr
  | some r =>
    dsimp only
    rw [(h.phase hr).mpr hstate]

/-- No reservation stands while the engine is IDLE or homes the switch under its timer. -/
theorem StoreLaw.resv_none {s : State} (h : StoreLaw s)
    (hstate : s.engine.state = .idle ∨ s.engine.state = .recovering ∧ s.engine.timer.isSome = true) : s.store.resv = none := by
  cases hr : s.store.resv with
  | none => rfl
  | some r =>
    exfalso
    have hphase := h.phase hr
    cases hp : r.phase with
    | held =>
      have := hphase.mp hp
      rcases hstate with k | ⟨k, -⟩ <;> rw [k] at this <;> cases this
    | writing w data =>
      obtain ⟨-, hw⟩ := h.of_writing hr hp
      rcases hstate with k | ⟨k, ht⟩ <;> rw [k] at hw
      · simp at hw
      · simp only [true_and, reduceCtorEq, false_or, or_false] at hw
        rw [hw] at ht
        cases ht

theorem StoreLaw.shelf_none {s : State} (h : StoreLaw s)
    (hstate : s.engine.state ≠ .recovering ∨ s.engine.timer.isSome = true) : s.shelf = none := by
  cases hs : s.shelf with
  | none => rfl
  | some k =>
    obtain ⟨hr, ht⟩ := h.2 (by rw [hs]; rfl)
    rcases hstate with h' | h'
    · exact absurd hr h'
    · rw [ht] at h'
      cases h'

theorem storeLaw_of_none {s : State} (hr : s.store.resv = none) (hs : s.shelf = none) : StoreLaw s := by
  refine ⟨fun r h => ?_, fun h => ?_⟩
  · rw [hr] at h
    cases h
  · rw [hs] at h
    cases h

/-- The routes, the store and the reservation are as R67, R85 and Table 5-2 say. -/
structure StoreOk (s : State) : Prop where
  routes : RouteLaw s
  blocks : BlockLaw s
  store : StoreLaw s

namespace StoreOk

variable {s t : State}

theorem of_eq (h : StoreOk s) (hr : t.routes = s.routes) (hs : t.store = s.store) (he : t.engine = s.engine)
    (hshelf : t.shelf = s.shelf) : StoreOk t where
  routes := h.routes.of_eq hr
  blocks := h.blocks.of_eq hs hr
  store := by
    unfold StoreLaw
    rw [hs, he, hshelf]
    exact h.store

/-- Whatever the engine does where there is no reservation. -/
theorem of_none (hroutes : RouteLaw s) (hb : BlockLaw s) (hr : s.store.resv = none) (hs : s.shelf = none) : StoreOk s :=
  ⟨hroutes, hb, storeLaw_of_none hr hs⟩

theorem stopped (h : StoreOk s) : StoreOk (stopRunning s) := by
  rcases stopRunning_cases s with k | ⟨e, -, hstops, k⟩ <;> rw [k]
  · exact h
  have hstop : canStop s.engine.state = true := (Bool.and_eq_true_iff.mp hstops).1
  have hholds : holdsState s.engine.state = true := by
    unfold holdsState
    rw [hstop]
    rfl
  have hstore : (stopAcquisition s).store = (returnReservation (frontOff s)).store := rfl
  have hoff : StoreOk (frontOff s) := h.of_eq rfl rfl rfl rfl
  have hframe := mergeTwins_queueOnly e.route e.kind (waitingState e.id (stopAcquisition s))
  have hroutes : (mergeTwins e.route e.kind (waitingState e.id (stopAcquisition s))).routes = s.routes :=
    hframe.routes.trans (stopAcquisition_portOnly s).routes
  refine of_none (h.routes.of_eq hroutes) ?_ ?_ ?_
  · refine hoff.blocks.returnReservation.of_eq (hframe.store.trans hstore) (hroutes.trans ?_)
    exact (returnReservation_portOnly (frontOff s)).routes.symm
  · rw [hframe.store]
    exact hoff.store.returned hholds
  · rw [hframe.shelf]
    refine (stopAcquisition_portOnly s).shelf.trans (h.store.shelf_none (.inl fun hr => ?_))
    rw [hr] at hstop
    cases hstop

theorem takes (h : StoreOk s) {e : Entry} (hidle : s.engine.state = .idle) : StoreOk (takeEntry e s) := by
  have hnone := h.store.resv_none (.inl hidle)
  have hshelf : s.shelf = none := h.store.shelf_none (.inl (by rw [hidle]; decide))
  have hroutes := h.routes.of_eq (takeEntry_portOnly e s).routes
  have hshelf' := (takeEntry_portOnly e s).shelf.trans hshelf
  rcases takeEntry_cases e s with ⟨-, k⟩ | ⟨b, hb, ⟨-, k⟩ | ⟨-, held, hr, k⟩ | ⟨-, -, k⟩⟩
  · rw [k]
    exact h
  · have hstore : (takeEntry e s).store = s.store := by
      rw [k, startSwitching_store]
      rfl
    exact of_none hroutes (h.blocks.of_eq hstore (takeEntry_portOnly e s).routes) (by rw [hstore, hnone]) hshelf'
  · rcases reserve_eq e.route ((s.engine.acq + 1) % 65536) (b.acq.len / 1024) (taken e b s) with ⟨-, k'⟩ | ⟨hle, k'⟩ <;>
      rw [k'] at hr
    · cases hr
    cases hr
    obtain ⟨-, -, hlen, -⟩ := h.routes e.route b hb
    have hstore : (takeEntry e s).store = { s.store with
        free := s.store.free.drop (b.acq.len / 1024)
        resv := some { route := e.route, acq := (s.engine.acq + 1) % 65536
                       blocks := s.store.free.take (b.acq.len / 1024), phase := .held } } := by
      rw [k, startSwitching_store]
      rfl
    have hrun : (takeEntry e s).engine.running.isSome = true := by
      rw [k, (startSwitching_running _ _).1]
      rfl
    have hstate : (takeEntry e s).engine.state = .switching ∨ (takeEntry e s).engine.state = .liveCheck := by
      rw [k, startSwitching_state]
      split
      · exact .inr rfl
      · exact .inl rfl
    refine ⟨hroutes, h.blocks.reserved hnone (n := b.acq.len / 1024) ?_ ?_ ?_ (by rw [hstore])
      (takeEntry_portOnly e s).routes, fun r hr => ?_, fun hs => ?_⟩
    · rfl
    · rw [hstore]
    · rw [hstore]
    · rw [hstore] at hr
      obtain rfl := Option.some.inj hr
      refine ⟨fun hnil => ?_, hrun, hstate.elim .inl fun hl => .inr (.inl hl)⟩
      have hpos : 1 ≤ b.acq.len / 1024 := Nat.div_pos hlen (by decide)
      have hlen' := congrArg List.length hnil
      have hfree : b.acq.len / 1024 ≤ s.store.free.length := hle
      simp only [List.length_take, List.length_nil] at hlen'
      omega
    · rw [hshelf'] at hs
      cases hs
  · have hframe := leaveQueue_queueOnly e .storeFull e.reqs none (setRecord e.route
      (some (shortRecord { id := e.id, route := e.route, kind := e.kind, cls := e.cls, settings := b.acq }
        ((s.engine.acq + 1) % 65536) .storeFull s.clock.now)) { s with engine := { s.engine with
          acq := (s.engine.acq + 1) % 65536 } })
    have hstore : (takeEntry e s).store = s.store := by
      rw [k]
      exact hframe.store
    exact of_none hroutes (h.blocks.of_eq hstore (takeEntry_portOnly e s).routes) (by rw [hstore, hnone]) hshelf'

theorem handsOut (h : StoreOk s) : StoreOk (handOut s) := handOut_keeps (fun _ _ h hmay => h.takes hmay.1) s h

theorem arbitrates (h : StoreOk s) : StoreOk (arbitrate s) :=
  arbitrate_keeps (fun _ h => h.stopped) (fun _ _ h hmay => h.takes hmay.1) s h

theorem covers (h : StoreOk s) : StoreOk (coverageReport s) :=
  coverageReport_keeps (fun _ h => h.stopped) (fun _ _ h hmay => h.takes hmay.1) s h

theorem reports (h : StoreOk s) (was : RouteNo → Bool) : StoreOk (routeReport was s) :=
  routeReport_keeps (fun _ h => h.stopped) (fun _ _ h hmay => h.takes hmay.1) was s h

theorem asks (h : StoreOk s) (who : Nat) (r : RouteNo) (k : TestKind) (cls : TestClass) : StoreOk (askTest who r k cls s).2 := by
  have hup (e : Entry) : StoreOk (upgradedState who e s) := h.of_eq rfl rfl rfl rfl
  have hplaced (id : Nat) : StoreOk (placedState id who r k cls s) := h.of_eq rfl rfl rfl rfl
  rcases askTest_placed who r k cls s with h' | ⟨-, -, ⟨e, -, -, -, -, h'⟩ | ⟨-, -, h'⟩⟩ <;> rw [h']
  · exact h
  · rcases joinEntry_cases who cls e s with ⟨-, k⟩ | ⟨-, k⟩ <;> rw [k]
    · exact (hup e).arbitrates
    · exact h.of_eq rfl rfl rfl rfl
  · rcases newEntry_cases (freshId s.queue.entries 33 s.queue.counter) who r k cls s with ⟨-, k⟩ | ⟨-, k⟩ <;> rw [k]
    · exact (hplaced _).arbitrates
    · exact (hplaced _).handsOut

/-- The engine takes a new state where there is no reservation. -/
theorem concludes (st : EngineState) (hroutes : RouteLaw s) (hb : BlockLaw s) (hr : s.store.resv = none) (hs : s.shelf = none) :
    StoreOk (concludeIn st s) := by
  have hok : StoreOk { s with engine := s.engine.freed st } :=
    of_none (hroutes.of_eq rfl) (hb.of_eq rfl rfl) hr hs
  exact hok.handsOut

theorem homes (hroutes : RouteLaw s) (hb : BlockLaw s) (hr : s.store.resv = none) (hs : s.shelf = none) :
    StoreOk (homeSwitch s) := by
  unfold homeSwitch
  split
  · exact concludes .idle hroutes hb hr hs
  · exact of_none (hroutes.of_eq rfl) (hb.of_eq rfl rfl) hr hs

/-- A finish gives a HELD reservation back. -/
theorem finishes (h : StoreOk s) (hr : s.store.resv = none ∨ holdsState s.engine.state = true) (out : TestOutcome)
    (err : Option EquipKind) (held : Option HeldAnalysis) {j : Option Judgement} (hj : j = none ∨ EngineFixed s) :
    RouteLaw (finishEntry out err held j s) ∧ BlockLaw (finishEntry out err held j s)
      ∧ (finishEntry out err held j s).store.resv = none := by
  have hroutes := (finishEntry_finishOnly out err held j s).routes
  refine ⟨h.routes.of_eq hroutes, ?_⟩
  cases hrun : s.engine.running with
  | none =>
    rw [finishEntry_of_none hrun]
    refine ⟨h.blocks, hr.elim id fun hstate => ?_⟩
    cases hresv : s.store.resv with
    | none => rfl
    | some r =>
      have := (h.store.of_held hresv ((h.store.phase hresv).mpr hstate)).1
      rw [hrun] at this
      cases this
  | some run =>
    have hstands := finishEntry_stands hrun out err held hj
    refine ⟨h.blocks.returnReservation.of_eq hstands.store (hroutes.trans (returnReservation_portOnly s).routes.symm), ?_⟩
    rw [hstands.store]
    rcases hr with hr | hstate
    · rcases returnReservation_eq s with k | ⟨r, -, -, k⟩ <;> rw [k]
      exact hr
    · exact h.store.returned hstate

theorem ended (h : StoreOk s) (hr : s.store.resv = none ∨ holdsState s.engine.state = true) (hs : s.shelf = none)
    (st : EngineState) (out : TestOutcome) (err : Option EquipKind) (held : Option HeldAnalysis) {j : Option Judgement}
    (hj : j = none ∨ EngineFixed s) : StoreOk (concludeIn st (finishEntry out err held j s)) := by
  obtain ⟨hroutes, hb, hnone⟩ := h.finishes hr out err held hj
  exact concludes st hroutes hb hnone ((finishEntry_finishOnly out err held j s).shelf.trans hs)

/-- The engine moves on with the reservation HELD. -/
theorem moved (h : StoreOk s) (hholds : holdsState s.engine.state = true) (hholds' : holdsState t.engine.state = true)
    (hrun : t.engine.running = s.engine.running) (hstore : t.store = s.store) (hroutes : t.routes = s.routes)
    (hshelf : t.shelf = s.shelf) : StoreOk t := by
  refine ⟨h.routes.of_eq hroutes, h.blocks.of_eq hstore hroutes, fun r hr => ?_, fun hs => ?_⟩
  · rw [hstore] at hr
    have hheld := (h.store.phase hr).mpr hholds
    rw [hheld, hrun]
    exact ⟨(h.store.1 r hr).1, (h.store.of_held hr hheld).1, holdsState_iff.mp hholds'⟩
  · rw [hshelf] at hs
    rw [(h.store.2 hs).1] at hholds
    cases hholds

theorem faultedEngine (h : StoreOk s) (hs : s.shelf = none) : StoreOk (faultEngine s) := by
  rcases faultEngine_cases s with ⟨hstop, k⟩ | ⟨hstate, k⟩ | ⟨hstate, k⟩ <;> rw [k]
  · have hoff : StoreOk (frontOff s) := h.of_eq rfl rfl rfl rfl
    refine hoff.ended (.inr ?_) hs .faulted .laserFault (some .laserFault) none (.inl rfl)
    show (canStop s.engine.state || _) = true
    rw [hstop]
    rfl
  · exact ⟨h.routes.of_eq rfl, h.blocks.of_eq rfl rfl, h.store⟩
  · refine ⟨h.routes.of_eq rfl, h.blocks.of_eq rfl rfl, fun r hr => ?_, fun hsome => ?_⟩
    · have hfree : holdsState s.engine.state = false := by rcases hstate with k | k | k <;> rw [k] <;> rfl
      refine ⟨(h.store.1 r hr).1, ?_⟩
      cases hp : r.phase with
      | held =>
        rw [(h.store.phase hr).mp hp] at hfree
        cases hfree
      | writing w data => exact ⟨(h.store.of_writing hr hp).1, .inr (.inr rfl)⟩
    · have : s.shelf.isSome = true := hsome
      rw [hs] at this
      cases this

theorem laserFaulted (h : StoreOk s) : StoreOk (laserFault s) := by
  have hoff : StoreOk { s with front := { s.front with laser := false } } := h.of_eq rfl rfl rfl rfl
  rcases laserFault_cases s with ⟨-, k⟩ | ⟨hs, k⟩ <;> rw [k]
  · exact hoff
  · exact hoff.faultedEngine hs

theorem changes (h : StoreOk s) (cause : CloseCause) (new : Vector Window 8) : StoreOk (changeWindows cause new s) := by
  have hnew : StoreOk { s with windows := new } := h.of_eq rfl rfl rfl rfl
  rcases changeWindows_cases cause new s with ⟨-, k⟩ | ⟨-, k⟩ <;> rw [k]
  · exact hnew
  · have hframe := (logWrites_queueOnly (windowChanges cause s.windows new) { s with windows := new }).trans
      (raiseTo_queueOnly (fun _ => true) .window _)
    exact (hnew.of_eq hframe.routes hframe.store hframe.engine hframe.shelf).covers

theorem edits (h : StoreOk s) (i : WindowNo) (w : WindowSettings) : StoreOk (acceptWindow i w s) := by
  have hnew : StoreOk { s with windows := editedWindows i w s } := h.of_eq rfl rfl rfl rfl
  rcases acceptWindow_cases i w s with ⟨-, k⟩ | ⟨-, k⟩ | ⟨-, k⟩ <;> rw [k]
  · exact h.changes _ _
  · exact hnew.covers
  · exact hnew

theorem rolls (h : StoreOk s) : StoreOk (tickClock s) := by
  have hnow : StoreOk { s with clock := { s.clock with now := nextSecond s.clock.now } } := h.of_eq rfl rfl rfl rfl
  rcases tickClock_cases s with ⟨-, k⟩ | ⟨-, -, k⟩ | ⟨-, -, -, k⟩ | ⟨-, -, -, k⟩ <;> rw [k]
  · exact h
  · exact hnow
  · exact h.of_eq rfl rfl rfl rfl
  · exact hnow.changes _ _

theorem leavesFaulted (h : StoreOk s) (hstate : s.engine.state = .faulted) : StoreOk (leaveFaulted s) := by
  have hs := h.store.shelf_none (.inl (by rw [hstate]; decide))
  have hfree : holdsState s.engine.state = false := by rw [hstate]; rfl
  unfold leaveFaulted
  split
  · refine ⟨h.routes.of_eq rfl, h.blocks.of_eq rfl rfl, fun r hr => ⟨(h.store.1 r hr).1, ?_⟩, fun _ => ⟨rfl, rfl⟩⟩
    cases hp : r.phase with
    | held =>
      rw [(h.store.phase hr).mp hp] at hfree
      cases hfree
    | writing w data => exact ⟨(h.store.of_writing hr hp).1, .inr (.inl ⟨rfl, rfl⟩)⟩
  · rename_i hnot
    refine homes h.routes h.blocks ?_ hs
    cases hr : s.store.resv with
    | none => rfl
    | some r =>
      cases hp : r.phase with
      | held =>
        rw [(h.store.phase hr).mp hp] at hfree
        cases hfree
      | writing w data => exact absurd (by simp [writeInFlight, hr, writingBlock, hp]) hnot

end StoreOk

end Sys2Proof.Machine
end

section
/-!
The store through every request and every event: each block stays in one place (R85), each reservation in its states (R24, R96).
-/
namespace Sys2Proof.Machine

@[simp] theorem setUnknown_store (r : RouteNo) (c : Client) (s : State) : (setUnknown r c s).store = s.store := by
  rcases setUnknown_cases r c s with ⟨-, k⟩ | ⟨-, k⟩ <;> rw [k] <;> rfl

@[simp] theorem setUnknown_engine (r : RouteNo) (c : Client) (s : State) : (setUnknown r c s).engine = s.engine := by
  rcases setUnknown_cases r c s with ⟨-, k⟩ | ⟨-, k⟩ <;> rw [k] <;> rfl

@[simp] theorem captureClear_store (r : RouteNo) (id acq : Nat) (t : Time) (s : State) :
    (captureClear r id acq t s).store = s.store := by
  rcases captureClear_cases r id acq t s with ⟨-, k⟩ | ⟨-, k⟩ <;> rw [k] <;> rfl

theorem baselineBlocks_of_bind {e f : RouteEntry} (h : e.body.bind RouteBody.baseline = f.body.bind RouteBody.baseline) :
    baselineBlocks e = baselineBlocks f := by
  rw [baselineBlocks_eq, baselineBlocks_eq, h]

theorem baselineBlocks_definedEntry_discarded {e : RouteEntry} {d : RouteDef} (h : changesAcq e d = true) :
    baselineBlocks (definedEntry e d) = [] := by
  rw [baselineBlocks_eq, definedEntry_baseline, if_pos h]
  rfl

theorem baselineBlocks_definedEntry_kept {e : RouteEntry} {d : RouteDef}
    (h : ¬(changesAcq e d = true ∧ routeStatus e = .baselined)) : baselineBlocks (definedEntry e d) = baselineBlocks e := by
  refine baselineBlocks_of_bind ?_
  rw [definedEntry_baseline]
  split
  · rename_i hc
    rw [routeStatus_eq_baselined_iff_bind, Option.isSome_iff_ne_none, ne_eq, not_and, not_not] at h
    exact (h hc).symm
  · rfl

theorem baselineBlocks_deletedEntry (e : RouteEntry) : baselineBlocks (deletedEntry e) = [] := rfl

theorem baselineBlocks_committedEntry (e : RouteEntry) (b : RouteBody) (r : Reservation) (x : HeldAnalysis) :
    baselineBlocks (committedEntry e b r x) = r.blocks := rfl

/-- A write in flight is one of a reserved block. -/
theorem StoreLaw.writing_mem {s : State} (h : StoreLaw s) {r : Reservation} (hr : s.store.resv = some r) {w : Nat}
    {data : List Nat} (hp : r.phase = .writing w data) : r.blocks.getD w 0 ∈ r.blocks := by
  rw [List.getD_eq_getElem _ _ (h.of_writing hr hp).1]
  exact List.getElem_mem _

theorem resv_none_of_not_writeInFlight {s : State} (hwriting : ¬writeInFlight s = true)
    (hheld : ∀ r, s.store.resv = some r → r.phase ≠ .held) : s.store.resv = none := by
  cases hr : s.store.resv with
  | none => rfl
  | some r =>
    cases hp : r.phase with
    | held => exact absurd hp (hheld r hr)
    | writing w data => exact absurd (by simp [writeInFlight, hr, writingBlock, hp]) hwriting

theorem returnReservation_not_held {s : State} {r : Reservation} (hr : (returnReservation s).store.resv = some r) :
    s.store.resv = some r ∧ r.phase ≠ .held := by
  rcases returnReservation_eq s with k | ⟨x, hx, hp, k⟩
  · rw [k] at hr
    refine ⟨hr, fun hheld => ?_⟩
    unfold returnReservation at k
    simp only [hr, hheld] at k
    have := congrArg (fun t => t.store.resv) k
    simp [hr] at this
  · rw [k] at hr
    cases hr

theorem rebuiltPool_congr {s t : State} (hr : t.routes = s.routes) (hb : t.store.bad = s.store.bad) :
    rebuiltPool s = rebuiltPool t := by
  unfold rebuiltPool listedBlocks
  rw [hr, hb]

@[simp] theorem powerLoss_free (s : State) : (powerLoss s).store.free = rebuiltPool (beginReset s) := by
  simp only [powerLoss]

@[simp] theorem powerLoss_bad (s : State) : (powerLoss s).store.bad = (beginReset s).store.bad := by
  unfold powerLoss
  rfl

@[simp] theorem powerLoss_resv (s : State) : (powerLoss s).store.resv = none := by
  unfold powerLoss
  rfl

namespace StoreOk

variable {s t : State}

/-- The store after an accepted definition (R70 to R72, R94). -/
theorem defines (h : StoreOk s) (c : Client) (r : RouteNo) (d : RouteDef) (hroutes : RouteLaw (acceptDefinition c r d s)) :
    StoreOk (acceptDefinition c r d s) := by
  have hframe := acceptDefinition_finishOnly c r d s
  have hengine := (acceptDefinition_stand c r d s).engine
  have hshelf : (acceptDefinition c r d s).shelf = s.shelf := hframe.shelf
  have hresv : (acceptDefinition c r d s).store.resv = s.store.resv := by
    rcases acceptDefinition_cases c r d s with ⟨-, k⟩ | ⟨-, k⟩ <;> rw [k]
    · rw [setUnknown_store]
      rfl
    · rfl
  refine ⟨hroutes, ?_, ?_⟩
  · rcases acceptDefinition_cases c r d s with ⟨hdiscards, k⟩ | ⟨hkeeps, k⟩
    · refine h.blocks.discarded r (baselineBlocks_definedEntry_discarded hdiscards.1) ?_ ?_ hresv hframe.routes <;>
        rw [k, setUnknown_store] <;> rfl
    · refine (h.blocks.setRoute r (baselineBlocks_definedEntry_kept hkeeps)).of_eq ?_ hframe.routes
      rw [k]
      rfl
  · unfold StoreLaw
    rw [hresv, hengine, hshelf]
    exact h.store

theorem deletes (h : StoreOk s) (c : Client) (r : RouteNo) (hroutes : RouteLaw (acceptDeletion c r s)) :
    StoreOk (acceptDeletion c r s) := by
  have hframe := acceptDeletion_finishOnly c r s
  have hqueue : QueueOnly (emptiedRoute c r s) (acceptDeletion c r s) := removeWaiting_queueOnly r _
  have hstore : (acceptDeletion c r s).store
      = (freeBlocks (baselineBlocks s.routes[r]) (setRecord r none (setRoute r (deletedEntry s.routes[r]) s))).store := by
    rw [hqueue.store, emptiedRoute, setUnknown_store]
    rfl
  have hengine := hqueue.engine.trans (emptiedRoute_stand c r s).engine
  have hshelf : (acceptDeletion c r s).shelf = s.shelf := hframe.shelf
  refine ⟨hroutes, h.blocks.discarded r (baselineBlocks_deletedEntry _) ?_ ?_ ?_ hframe.routes, ?_⟩
  iterate 3
    rw [hstore]
    rfl
  unfold StoreLaw
  rw [hstore, hengine, hshelf]
  exact h.store

theorem holds (h : StoreOk s) (c : Client) (r : RouteNo) (x : HoldSet) : StoreOk (changeHolds c r x s) := by
  have hset : StoreOk (setRoute r { s.routes[r] with holds := x } s) :=
    ⟨h.routes.setRoute r (h.routes r), h.blocks.setRoute r rfl, h.store⟩
  have hlogged : StoreOk (logWrite (.holdChange r c x) (setRoute r { s.routes[r] with holds := x } s)) :=
    hset.of_eq rfl rfl rfl rfl
  rcases changeHolds_cases c r x s with ⟨-, k⟩ | ⟨-, k⟩ <;> rw [k]
  · exact hlogged.reports _
  · exact hlogged

/-- The acquisition stops and its reservation goes back (R17). -/
theorem stopsAcquisition (h : StoreOk s) (hstop : canStop s.engine.state = true) : StoreOk (stopAcquisition s) := by
  have hoff : StoreOk (frontOff s) := h.of_eq rfl rfl rfl rfl
  have hstore : (stopAcquisition s).store = (returnReservation (frontOff s)).store := rfl
  have hroutes := (stopAcquisition_portOnly s).routes
  refine of_none (h.routes.of_eq hroutes)
    (hoff.blocks.returnReservation.of_eq hstore (hroutes.trans (returnReservation_portOnly (frontOff s)).routes.symm)) ?_ ?_
  · refine hoff.store.returned ?_
    unfold holdsState
    exact Bool.or_eq_true_iff.mpr (.inl hstop)
  · refine (stopAcquisition_portOnly s).shelf.trans (h.store.shelf_none (.inl fun hr => ?_))
    rw [hr] at hstop
    cases hstop

theorem queueOnly (h : StoreOk s) (k : QueueOnly s t) : StoreOk t := h.of_eq k.routes k.store k.engine k.shelf

theorem work {c : Client} {wf : Prop} {code : Nat} (hw : Work c wf code s t) (h : StoreOk s) : StoreOk t := by
  induction hw with
  | nothing => exact h
  | test r k cl => exact h.asks _ r k cl
  | testGone r k cl => exact (h.asks (bitOf c) r k cl).of_eq rfl rfl rfl rfl
  | cancelKept e => exact h.queueOnly ((setEntries_queueOnly _ _).trans (dropFromMarks_queueOnly _ _ _))
  | cancelWaiting e => exact h.queueOnly (leaveQueue_queueOnly _ _ _ _ _)
  | cancelRunning e acq mem runs stops =>
    exact ((h.stopsAcquisition (Bool.and_eq_true_iff.mp stops).1).queueOnly (leaveQueue_queueOnly _ _ _ _ _)).handsOut
  | define r d values zone free => exact h.defines c r d (RouteLaw.work (.define (wf := wf) (code := code) r d values zone free) h.routes)
  | delete r defined free => exact h.deletes c r (RouteLaw.work (.delete (wf := wf) (code := code) r defined free) h.routes)
  | holds r x => exact h.holds c r x
  | window i d w => exact h.edits i w
  | setAndStart set stopped ih | thresholdReached set ih => exact ih.of_eq rfl rfl rfl rfl
  | stopClock =>
    have hu : StoreOk (logWrite (.clock c .stopped) { s with clock := { s.clock with running := false } }) :=
      h.of_eq rfl rfl rfl rfl
    exact hu.changes _ _
  | setClock | startClock | markDone | markOpens | setNotices | clearNotices | readLog | setDevice | clearEquipment | arm =>
    exact h.of_eq rfl rfl rfl rfl
  | setBarred p d =>
    have hu : StoreOk { s with device := d } := h.of_eq rfl rfl rfl rfl
    exact hu.reports _
  | leaveFaulted state =>
    have hu : StoreOk { s with equip := none } := h.of_eq rfl rfl rfl rfl
    exact hu.leavesFaulted state

/-! ### Resets and the ends of writes -/

/-- After the start of a reset the engine waits, with no reservation but one whose write is in flight (R24, R96). -/
theorem begins (h : StoreOk s) : StoreOk (beginReset s) := by
  refine ⟨h.routes.of_eq (beginReset_routes s),
    h.blocks.returnReservation.of_eq rfl rfl, fun r hr => ?_, fun _ => ⟨rfl, rfl⟩⟩
  obtain ⟨hr, hnot⟩ := returnReservation_not_held hr
  refine ⟨(h.store.1 r hr).1, ?_⟩
  cases hp : r.phase with
  | held => exact absurd hp hnot
  | writing w data => exact ⟨(h.store.of_writing hr hp).1, .inr (.inl ⟨rfl, rfl⟩)⟩

theorem shelved (h : StoreOk s) (hstate : s.engine.state = .recovering ∧ s.engine.timer = none) (k : Option ResetKind) :
    StoreOk { s with shelf := k } :=
  ⟨h.routes.of_eq rfl, h.blocks.of_eq rfl rfl, h.store.1, fun _ => hstate⟩

/-- Power loss leaves no reservation, and the pool rebuilt (R97). -/
theorem losesPower (h : StoreOk s) (k : Option ResetKind) : StoreOk { powerLoss s with shelf := k } := by
  have hroutes : (powerLoss s).routes = (beginReset s).routes := (powerLoss_routes s).trans (beginReset_routes s).symm
  refine ⟨h.routes.of_eq (powerLoss_routes s), ?_, fun r hr => ?_, fun _ => ⟨rfl, rfl⟩⟩
  · refine h.begins.blocks.rebuilt (t := { powerLoss s with shelf := k }) ?_ ?_ ?_ ?_
    · rw [powerLoss_free]
      exact rebuiltPool_congr hroutes (powerLoss_bad s)
    · exact powerLoss_bad s
    · exact powerLoss_resv s
    · exact hroutes
  · cases hr

/-- The end of a reset homes the switch, but for a write in flight (R24). -/
theorem endsReset (k : ResetKind) (h : StoreOk s) (hstate : s.engine.state = .recovering ∧ s.engine.timer = none) :
    StoreOk (endReset k s) := by
  have hopen : StoreOk { s with shelf := none } := h.shelved hstate none
  have hin : StoreOk (inService k s) := hopen.of_eq rfl rfl rfl rfl
  rw [endReset_eq]
  split
  · exact hin
  · rename_i hwriting
    refine homes hin.routes hin.blocks (resv_none_of_not_writeInFlight (s := s) hwriting fun r hr hheld => ?_) rfl
    have := (h.store.phase hr).mp hheld
    rw [hstate.1] at this
    cases this

/-- A write that a reset cut off has ended (R24, R96). -/
theorem cutsOff (hroutes : RouteLaw s) (hb : BlockLaw s) (hr : s.store.resv = none)
    (hheld : s.shelf.isSome = true → s.engine.state = .recovering ∧ s.engine.timer = none) : StoreOk (cutOffEnds s) := by
  unfold cutOffEnds resumeHoming
  split
  · rename_i hc
    have hshelf := Option.isNone_iff_eq_none.mp (Bool.and_eq_true_iff.mp hc).1
    exact homes (hroutes.of_eq rfl) (hb.of_eq rfl rfl) hr hshelf
  · refine ⟨hroutes.of_eq rfl, hb.of_eq rfl rfl, fun r hsome => ?_, hheld⟩
    rw [show s.store.resv = some r from hsome] at hr
    cases hr

/-- The commit makes the reservation the route's block list, or gives it back where the route is UNUSED (R91, R133). -/
theorem commits (h : StoreOk s) {r : Reservation} (hr : s.store.resv = some r) (run : Running) (x : HeldAnalysis) :
    RouteLaw (commitCapture run r x s) ∧ BlockLaw (commitCapture run r x s) ∧ (commitCapture run r x s).store.resv = none := by
  refine ⟨h.routes.committed run r x, ?_⟩
  rcases commitCapture_cases run r x s with ⟨-, k⟩ | ⟨b, -, k⟩ <;> rw [k]
  · exact ⟨h.blocks.returned hr rfl rfl rfl rfl, rfl⟩
  · refine ⟨h.blocks.committed run.route hr (baselineBlocks_committedEntry s.routes[run.route] b r x) ?_ ?_ ?_
      (captureClear_finishOnly _ _ _ _ _).routes, ?_⟩ <;> rw [captureClear_store]

end StoreOk

end Sys2Proof.Machine
end

section
/-!
O9: every event keeps each block in one place.
-/
namespace Sys2Proof.Machine

theorem commitCapture_shelf (run : Running) (r : Reservation) (x : HeldAnalysis) (s : State) :
    (commitCapture run r x s).shelf = s.shelf := by
  rcases commitCapture_finishOnly run r x s with ⟨-, k⟩ | ⟨b, -, k⟩
  · exact k.shelf
  · exact k.shelf

namespace StoreOk

variable {s t : State}

theorem startsWriting (hroutes : RouteLaw s) (hb : BlockLaw s) {w : Nat}
    (hw : ∀ r, s.store.resv = some r → r.blocks ≠ [] ∧ w < r.blocks.length) (hstate : s.engine.state = .committing)
    (hshelf : s.shelf = none) : StoreOk (startWrite w s) := by
  have hreserved : reservedBlocks (startWrite w s) = reservedBlocks s := by
    unfold reservedBlocks startWrite
    cases s.store.resv <;> rfl
  refine ⟨hroutes.of_eq rfl, ?_, fun r hr => ?_, fun hs => ?_⟩
  · unfold BlockLaw at hb ⊢
    rw [hreserved]
    exact hb
  · obtain ⟨x, hx, rfl⟩ := Option.map_eq_some_iff.mp (show s.store.resv.map _ = some r from hr)
    exact ⟨(hw x hx).1, (hw x hx).2, .inl hstate⟩
  · rw [show s.shelf = (startWrite w s).shelf from rfl] at hshelf
    rw [hshelf] at hs
    cases hs

/-- A failed write: its block is bad, the rest of the reservation free (R92). -/
theorem losesWrite (h : StoreOk s) {r : Reservation} (hr : s.store.resv = some r) {w : Nat} {data : List Nat}
    (hp : r.phase = .writing w data) : BlockLaw (writeLost r (r.blocks.getD w 0) s) :=
  h.blocks.lost hr (h.store.writing_mem hr hp) rfl rfl rfl rfl

theorem effect {wf : Prop} (he : Effect wf s t) (h : StoreOk s) : StoreOk t := by
  induction he with
  | nothing => exact h
  | assembly | sent | turnedAway | arrived | pulseEnds | faultEnds => exact h.of_eq rfl rfl rfl rfl
  | framed c line after ih => exact ih (h.of_eq rfl rfl rfl rfl)
  | busy c tag =>
    unfold refuseBusy
    dsimp only
    split
    · exact h.of_eq rfl rfl rfl rfl
    · exact h
  | served c tag r ready may fits => exact (h.work (ownerOf_work r _ may fits)).of_eq rfl rfl rfl rfl
  | craftReset => exact h.begins.endsReset _ ⟨rfl, rfl⟩
  | shelfReset => exact h.begins.shelved ⟨rfl, rfl⟩ _
  | release k line => exact h.endsReset k (h.store.2 (by rw [line]; rfl))
  | powerOnHeld => exact h.losesPower _
  | powerOn => exact (h.losesPower (powerLoss _).shelf).endsReset _ ⟨rfl, rfl⟩
  | settled p state => exact h.moved (by rw [state]; rfl) rfl rfl rfl rfl rfl
  | @homed s state timer =>
    exact concludes (s := { s with switch := .standing .home }) _ (h.routes.of_eq rfl) (h.blocks.of_eq rfl rfl)
      (h.store.resv_none (.inr ⟨state, timer⟩)) (h.store.shelf_none (.inr timer))
  | stuck state =>
    obtain ⟨hroutes, hb, hr⟩ := h.finishes (.inr (by rw [state]; rfl)) .switchStuck (some .switchStuck) none (.inl rfl)
    exact homes hroutes hb hr ((finishEntry_finishOnly _ _ _ _ _).shelf.trans (h.store.shelf_none (.inl (by rw [state]; decide))))
  | homeFailed state timer =>
    exact of_none (h.routes.of_eq rfl) (h.blocks.of_eq rfl rfl) (h.store.resv_none (.inr ⟨state, timer⟩))
      (h.store.shelf_none (.inr timer))
  | @liveLight s run rec state running =>
    have hu : StoreOk { s with front := { s.front with checking := false, record := some rec } } := h.of_eq rfl rfl rfl rfl
    exact hu.ended (.inr (congrArg holdsState state)) (h.store.shelf_none (.inl (by rw [state]; decide))) _ _ _ _ (.inl rfl)
  | @fires s run rec state running =>
    have hu : StoreOk { s with front := { s.front with checking := false, record := some rec } } := h.of_eq rfl rfl rfl rfl
    have hfiring : StoreOk (firingState run.settings.len { s with front := { s.front with checking := false, record := some rec } }) :=
      hu.moved (congrArg holdsState state) rfl rfl rfl rfl rfl
    rcases startFiring_cases run.settings.len { s with front := { s.front with checking := false, record := some rec } } with
      ⟨-, k⟩ | ⟨-, k⟩ <;> rw [k]
    · exact hfiring
    · exact hfiring.laserFaulted
  | shot run samples state => exact h.moved (by rw [state]; rfl) (congrArg holdsState state) rfl rfl rfl rfl
  | lastShot run samples state => exact h.moved (by rw [state]; rfl) rfl rfl rfl rfl rfl
  | @acqTimeout s state =>
    have hu : StoreOk (frontOff s) := h.of_eq rfl rfl rfl rfl
    exact hu.ended (.inr (congrArg holdsState state)) (h.store.shelf_none (.inl (by rw [state]; decide))) _ _ _ _ (.inl rfl)
  | @analysed s run f cells out j state running =>
    have hu : StoreOk (holdTrace run f cells s) :=
      h.moved (congrArg holdsState state) (congrArg holdsState state) rfl rfl rfl rfl
    have hfixed : EngineFixed (holdTrace run f cells s) :=
      ⟨fun hi => absurd (state.symm.trans hi) (by decide), congrArg canStop state⟩
    exact hu.ended (.inr (congrArg holdsState state)) (h.store.shelf_none (.inl (by rw [state]; decide))) _ _ _ _ (.inr hfixed)
  | @commits s run f cells state running kind =>
    refine startsWriting (s := { holdTrace run f cells s with
        engine := { (holdTrace run f cells s).engine with state := .committing } }) (h.routes.of_eq rfl) (h.blocks.of_eq rfl rfl) (fun r hr => ?_) rfl
      (h.store.shelf_none (.inl (by rw [state]; decide)))
    have hnonempty := (h.store.1 r hr).1
    exact ⟨hnonempty, List.length_pos_iff.mpr hnonempty⟩
  | @nextWrite s r w data run state running resv phase more =>
    refine startsWriting (s := writeDone (r.blocks.getD w 0) data s) (h.routes.of_eq rfl) h.blocks (fun x hx => ?_) state
      (h.store.shelf_none (.inl (by rw [state]; decide)))
    obtain rfl := Option.some.inj (resv.symm.trans hx)
    exact ⟨(h.store.1 _ resv).1, more⟩
  | @captured s r w data run x state running held resv phase last =>
    have hu : StoreOk (writeDone (r.blocks.getD w 0) data s) := ⟨h.routes.of_eq rfl, h.blocks, h.store⟩
    obtain ⟨hroutes, hb, hr⟩ := hu.commits resv run x
    have hshelf : (commitCapture run r x (writeDone (r.blocks.getD w 0) data s)).shelf = none :=
      (commitCapture_shelf _ _ _ _).trans (h.store.shelf_none (.inl (by rw [state]; decide)))
    have hok := of_none hroutes hb hr hshelf
    exact hok.ended (.inl hr) hshelf _ _ _ _ (.inl rfl)
  | @storeError s r w data state resv phase =>
    have hshelf := h.store.shelf_none (.inl (by rw [state]; decide))
    have hu : StoreOk (writeLost r (r.blocks.getD w 0) s) := of_none (h.routes.of_eq rfl) (h.losesWrite resv phase) rfl hshelf
    exact hu.ended (.inl rfl) hshelf _ _ _ _ (.inl rfl)
  | @cutOffGood s r w data state resv phase =>
    refine cutsOff (h.routes.of_eq rfl) (h.blocks.returned resv rfl rfl rfl rfl) rfl h.store.2
  | @cutOffFailed s r w data state resv phase =>
    exact cutsOff (h.routes.of_eq rfl) (h.losesWrite resv phase) rfl h.store.2
  | @laserFault s =>
    have hu : StoreOk { s with front := { s.front with fault := true } } := h.of_eq rfl rfl rfl rfl
    exact hu.laserFaulted
  | tick s => exact h.rolls

theorem step (hstep : Machine.step s = .next t) (h : StoreOk s) : StoreOk t :=
  step_keeps (P := StoreOk) (fun _ _ h => h.of_eq rfl rfl rfl rfl) (fun he h => h.effect he) h hstep

end StoreOk

/-- Settles O9: what leaves one place of Table 5-1 enters another in the same change of the store. -/
theorem everyStepKeepsBlockLaw : Obligations.EveryStepKeepsBlockLaw := by
  intro s t hroutes hstore hblocks hstep
  have hok := StoreOk.step hstep ⟨hroutes, hblocks, hstore⟩
  exact ⟨hok.store, hok.blocks⟩

end Sys2Proof.Machine
end

section
/-!
Averages, levels and the measured end (R26 to R32): the level counts 64ths of an octave, so it grows with the average; the
measured end is the first index from which a whole width stands at or below the floor.
-/
namespace Sys2Proof.Machine

/-! ### Averages (R26) -/

theorem average_bounds {n : Nat} (hn : 0 < n) (sum : Nat) :
    2 * n * average n sum ≤ 2 * (256 * sum) + n ∧ 2 * (256 * sum) + n < 2 * n * (average n sum + 1) :=
  half_up_bounds hn _

/-- The largest sum of `n` shots averages to 256 times the largest sample. -/
theorem average_le_largest {n sum : Nat} (hn : 0 < n) (h : sum ≤ 65535 * n) : average n sum ≤ 16776960 := by
  have hlt : 256 * sum + n / 2 < 16776961 * n := by omega
  exact Nat.le_of_lt_succ (Nat.div_lt_of_lt_mul (Nat.mul_comm _ n ▸ hlt))

/-! ### Levels (R28, R29) -/

/-- The 64ths of an octave below an averaged value (R28). -/
def octave64ths (a : Nat) : Nat := 64 * a.log2 + 64 * (a - 2 ^ a.log2) / 2 ^ a.log2

theorem levelOf_eq {a : Nat} (h : a ≠ 0) : levelOf a = (octave64ths a * 150515 + 32000) / 64000 := if_neg h

theorem octave64ths_lt (a : Nat) : octave64ths a < 64 * (a.log2 + 1) := by
  have hlt : a < 2 ^ a.log2 * 2 := Nat.pow_succ 2 a.log2 ▸ Nat.lt_log2_self
  have hdiv : 64 * (a - 2 ^ a.log2) / 2 ^ a.log2 < 64 := Nat.div_lt_of_lt_mul (by omega)
  unfold octave64ths
  omega

theorem octave64ths_mono {a b : Nat} (ha : a ≠ 0) (h : a ≤ b) : octave64ths a ≤ octave64ths b := by
  have hb : b ≠ 0 := by omega
  have hlog : a.log2 ≤ b.log2 := by
    rw [Nat.le_log2 hb]
    exact (Nat.log2_self_le ha).trans h
  rcases Nat.eq_or_lt_of_le hlog with heq | hlt
  · unfold octave64ths
    rw [heq]
    exact Nat.add_le_add_left (Nat.div_le_div_right (Nat.mul_le_mul_left _ (Nat.sub_le_sub_right h _))) _
  · calc octave64ths a ≤ 64 * (a.log2 + 1) := (octave64ths_lt a).le
      _ ≤ 64 * b.log2 := Nat.mul_le_mul_left _ hlt
      _ ≤ octave64ths b := Nat.le_add_right _ _

theorem levelOf_mono {a b : Nat} (h : a ≤ b) : levelOf a ≤ levelOf b := by
  by_cases ha : a = 0
  · rw [ha]
    exact Nat.zero_le _
  · rw [levelOf_eq ha, levelOf_eq (by omega)]
    exact Nat.div_le_div_right (Nat.add_le_add_right (Nat.mul_le_mul_right _ (octave64ths_mono ha h)) _)

theorem levelOf_largest : levelOf 16776960 = 3610 := by decide

theorem levelOf_le {a : Nat} (h : a ≤ 16776960) : levelOf a ≤ 3610 := levelOf_largest ▸ levelOf_mono h

theorem levelOf_two : levelOf 2 = 151 := by decide

theorem levelOf_eq_zero_iff (a : Nat) : levelOf a = 0 ↔ a ≤ 1 := by
  constructor
  · intro h
    by_contra hlarge
    have := levelOf_mono (show 2 ≤ a by omega)
    rw [levelOf_two] at this
    omega
  · intro h
    have := levelOf_mono h
    rw [show levelOf 1 = 0 by decide] at this
    omega

/-- The last 64th below the largest average is the first whose level is the top one. -/
theorem levelOf_eq_top_iff {a : Nat} (h : a ≤ 16776960) : levelOf a = 3610 ↔ 16646144 ≤ a := by
  constructor
  · intro htop
    by_contra hlow
    have := levelOf_mono (show a ≤ 16646143 by omega)
    rw [show levelOf 16646143 = 3608 by decide] at this
    omega
  · intro hhigh
    have := levelOf_mono hhigh
    rw [show levelOf 16646144 = 3610 by decide] at this
    exact le_antisymm (levelOf_le h) this

theorem octave_le {a e : Nat} (hlow : 2 ^ e ≤ a) (h : a ≤ 16776960) : e ≤ 23 := by
  by_contra hlarge
  have : 2 ^ 24 ≤ 2 ^ e := Nat.pow_le_pow_right (by decide) (by omega)
  omega

theorem log2_of_octave {a e : Nat} (hlow : 2 ^ e ≤ a) (hhigh : a < 2 ^ (e + 1)) : a.log2 = e := by
  have ha : a ≠ 0 := by
    have := Nat.two_pow_pos e
    omega
  exact le_antisymm (Nat.lt_succ_iff.mp ((Nat.log2_lt ha).mpr hhigh)) ((Nat.le_log2 ha).mpr hlow)

/-- Each level of a trace is of the average of a sum that its shots can make (R29). -/
theorem traceCells_level_le {n : Nat} {acc : List AccCell} (hn : 0 < n) (h : ∀ c ∈ acc, c.sum ≤ 65535 * n) :
    ∀ x ∈ (traceCells n acc).map TraceCell.level, x ≤ 3610 := by
  intro x hx
  simp only [traceCells, List.map_map, List.mem_map, Function.comp_apply] at hx
  obtain ⟨c, hc, rfl⟩ := hx
  exact levelOf_le (average_le_largest hn (h c hc))

/-! ### The measured end (R32) -/

/-- A whole width of levels from index `k` on stands at or below the floor. -/
def LowFrom (w f : Nat) (ms : List Nat) (k : Nat) : Prop :=
  k + w ≤ ms.length ∧ ∀ i, k ≤ i → i < k + w → ms.getD i 0 ≤ f

section
variable {w f : Nat}

theorem lowFrom_zero_iff {ms : List Nat} :
    LowFrom w f ms 0 ↔ (ms.take w).length = w ∧ (ms.take w).all (fun x => decide (x ≤ f)) = true := by
  simp only [LowFrom, Nat.zero_add, Nat.zero_le, true_implies, List.length_take, List.all_eq_true, decide_eq_true_eq]
  constructor
  · rintro ⟨hlen, hlow⟩
    refine ⟨by omega, fun x hx => ?_⟩
    obtain ⟨i, hi, rfl⟩ := List.mem_iff_getElem.mp hx
    rw [List.length_take] at hi
    rw [List.getElem_take, ← List.getD_eq_getElem ms 0]
    exact hlow i (by omega)
  · rintro ⟨hlen, hall⟩
    refine ⟨by omega, fun i hi => ?_⟩
    rw [List.getD_eq_getElem ms 0 (by omega)]
    exact hall _ (List.mem_take_iff_getElem.mpr ⟨i, by omega, rfl⟩)

theorem lowFrom_cons_succ_iff {m : Nat} {ms : List Nat} {k : Nat} : LowFrom w f (m :: ms) (k + 1) ↔ LowFrom w f ms k := by
  unfold LowFrom
  refine and_congr (by simp only [List.length_cons]; omega) ⟨fun h i hlo hhi => ?_, fun h i hlo hhi => ?_⟩
  · exact h (i + 1) (by omega) (by omega)
  · obtain ⟨j, rfl⟩ : ∃ j, i = j + 1 := ⟨i - 1, by omega⟩
    exact h j (by omega) (by omega)

theorem not_lowFrom_nil (hw : 1 ≤ w) (k : Nat) : ¬LowFrom w f [] k := fun h => by
  have := h.1
  simp only [List.length_nil] at this
  omega

/-- The search gives the first index from which a width is low, or none where there is no such index. -/
theorem endFrom_cases (hw : 1 ≤ w) (ms : List Nat) (i : Nat) :
    (endFrom w f i ms = none ∧ ∀ k, ¬LowFrom w f ms k)
      ∨ ∃ k, endFrom w f i ms = some (i + k) ∧ LowFrom w f ms k ∧ ∀ k', LowFrom w f ms k' → k ≤ k' := by
  induction ms generalizing i with
  | nil => exact .inl ⟨rfl, not_lowFrom_nil hw⟩
  | cons m ms ih =>
    by_cases hlow : LowFrom w f (m :: ms) 0
    · exact .inr ⟨0, if_pos (lowFrom_zero_iff.mp hlow), hlow, fun _ _ => Nat.zero_le _⟩
    · have hnext : endFrom w f i (m :: ms) = endFrom w f (i + 1) ms := if_neg (lowFrom_zero_iff.not.mp hlow)
      rw [hnext]
      rcases ih (i + 1) with ⟨hnone, hall⟩ | ⟨k, hsome, hk, hfirst⟩
      · refine .inl ⟨hnone, fun k => ?_⟩
        cases k with
        | zero => exact hlow
        | succ k => exact lowFrom_cons_succ_iff.not.mpr (hall k)
      · refine .inr ⟨k + 1, by rw [hsome]; congr 1; omega, lowFrom_cons_succ_iff.mpr hk, fun k' hk' => ?_⟩
        cases k' with
        | zero => exact absurd hk' hlow
        | succ k' => exact Nat.succ_le_succ (hfirst k' (lowFrom_cons_succ_iff.mp hk'))

theorem lowFrom_drop_iff {dz : Nat} {levels : List Nat} {k : Nat} (hw : 1 ≤ w) :
    LowFrom w f (levels.drop dz) k ↔ LowFrom w f levels (dz + k) := by
  unfold LowFrom
  rw [List.length_drop]
  refine and_congr (by omega) ⟨fun h i hlo hhi => ?_, fun h i hlo hhi => ?_⟩
  · have := h (i - dz) (by omega) (by omega)
    rwa [List.getD_eq_getElem?_getD, List.getElem?_drop, Nat.add_sub_cancel' (by omega), ← List.getD_eq_getElem?_getD] at this
  · rw [List.getD_eq_getElem?_getD, List.getElem?_drop, ← List.getD_eq_getElem?_getD]
    exact h (dz + i) (by omega) (by omega)

/-- The measured end is the first low index from the dead zone on, or the length of the trace (R32). -/
theorem measuredEnd_cases (hw : 1 ≤ w) (dz : Nat) (levels : List Nat) :
    (measuredEnd dz w f levels = levels.length ∧ ∀ e, dz ≤ e → ¬LowFrom w f levels e)
      ∨ (dz ≤ measuredEnd dz w f levels ∧ LowFrom w f levels (measuredEnd dz w f levels)
        ∧ ∀ e, dz ≤ e → LowFrom w f levels e → measuredEnd dz w f levels ≤ e) := by
  unfold measuredEnd
  rcases endFrom_cases hw (levels.drop dz) dz with ⟨hnone, hall⟩ | ⟨k, hsome, hk, hfirst⟩
  · rw [hnone]
    refine .inl ⟨rfl, fun e he => ?_⟩
    have := hall (e - dz)
    rwa [lowFrom_drop_iff hw, Nat.add_sub_cancel' he] at this
  · rw [hsome]
    refine .inr ⟨Nat.le_add_right _ _, (lowFrom_drop_iff hw).mp hk, fun e he hlow => ?_⟩
    rw [← Nat.add_sub_cancel' he, ← lowFrom_drop_iff hw] at hlow
    have := hfirst _ hlow
    show dz + k ≤ e
    omega

end

/-- Settles O55: the level by the 64ths of an octave, the end by the first low index of the search. -/
theorem averagesLevelsAndEnds : Obligations.AveragesLevelsAndEnds := by
  refine ⟨fun k sum _ _ hsum => ?_, fun a e hlow hhigh ha => ?_, fun _ _ => levelOf_mono, fun _ => levelOf_le,
    levelOf_eq_zero_iff, levelOf_two, fun _ => levelOf_eq_top_iff, fun dz w f levels hw hlen low hlow => ?_⟩
  · obtain ⟨hle, hlt⟩ := average_bounds (Nat.two_pow_pos k) sum
    exact ⟨hle, hlt, average_le_largest (Nat.two_pow_pos k) hsum⟩
  · refine ⟨octave_le hlow ha, ?_⟩
    have hlog := log2_of_octave hlow hhigh
    rw [levelOf_eq (by have := Nat.two_pow_pos e; omega), octave64ths, hlog]
  · have hlow (e : Nat) : low e ↔ dz ≤ e ∧ LowFrom w f levels e := hlow e
    simp only [hlow]
    rcases measuredEnd_cases (f := f) hw dz levels with ⟨hend, hnone⟩ | ⟨hdz, hend, hfirst⟩
    · refine ⟨fun ⟨e, hdz, he⟩ => absurd he (hnone e hdz), fun _ => hend⟩
    · refine ⟨fun _ => ⟨⟨hdz, hend⟩, fun e ⟨he, hl⟩ => hfirst e he hl⟩, fun hno => ?_⟩
      exact absurd ⟨_, hdz, hend⟩ hno

end Sys2Proof.Machine
end

section
/-!
The block contents and what an acquisition gathers (R29, R85, R88): what each operation of the card keeps of them.
-/
namespace Sys2Proof.Machine

/-! ### The parts of the law -/

/-- What is stored or on its way into a block; and each baseline's list is as long as its trace (R85, R88). -/
structure MemoryLaw (s : State) : Prop where
  canonical : blockMemWf s.store.mem = true
  levels : ∀ p ∈ s.store.mem, LevelsOk p.2
  writing : ∀ r w data, s.store.resv = some r → r.phase = .writing w data → LevelsOk data
  trace : ∀ x ∈ traceLevels s.trace, x ≤ 3610
  lists : ∀ (r : RouteNo) b x, s.routes[r].body = some b → b.baseline = some x → x.blocks.length * 1024 = b.acq.len

/-- What the running acquisition has gathered. -/
def GatheredLaw (s : State) : Prop := ∀ run, s.engine.running = some run → GatheredOk s run

theorem contentsLaw_iff {s : State} : ContentsLaw s ↔ MemoryLaw s ∧ GatheredLaw s :=
  ⟨fun ⟨hc, hl, hw, ht, hb, hg⟩ => ⟨⟨hc, hl, hw, ht, hb⟩, hg⟩, fun ⟨⟨hc, hl, hw, ht, hb⟩, hg⟩ => ⟨hc, hl, hw, ht, hb, hg⟩⟩

/-- The states in which the shots or the trace of an acquisition are held. -/
def collects : EngineState → Bool
  | .firing | .analysing | .committing => true
  | _ => false

theorem returnReservation_mem (s : State) : (returnReservation s).store.mem = s.store.mem :=
  (returnReservation_returned s).2.1

theorem returnReservation_resv (s : State) :
    (returnReservation s).store.resv = s.store.resv ∨ (returnReservation s).store.resv = none := by
  rcases returnReservation_eq s with k | ⟨r, -, -, k⟩ <;> rw [k]
  · exact .inl rfl
  · exact .inr rfl

section
variable {s t : State}

theorem MemoryLaw.of_eq (h : MemoryLaw s) (hmem : t.store.mem = s.store.mem)
    (hresv : t.store.resv = s.store.resv ∨ t.store.resv = none) (htrace : t.trace = s.trace ∨ traceLevels t.trace = [])
    (hroutes : t.routes = s.routes) : MemoryLaw t where
  canonical := by rw [hmem]; exact h.canonical
  levels := by rw [hmem]; exact h.levels
  writing := by
    rcases hresv with k | k <;> rw [k]
    · exact h.writing
    · intro _ _ _ hr
      cases hr
  trace := by
    rcases htrace with k | k <;> rw [k]
    · exact h.trace
    · exact fun _ hx => absurd hx (List.not_mem_nil)
  lists := by rw [hroutes]; exact h.lists

theorem levelsOk_of_mem_writeBlock {b : Nat} {ls : List Nat} {m : BlockMem} (hls : LevelsOk ls) (h : ∀ p ∈ m, LevelsOk p.2) :
    ∀ p ∈ writeBlock b ls m, LevelsOk p.2 := by
  have herased : ∀ p ∈ eraseBlock b m, LevelsOk p.2 := fun p hp => h p (List.mem_filter.mp hp).1
  unfold writeBlock
  split
  · exact herased
  · intro p hp
    rcases (mem_insertBlock _ _ _ _).mp hp with rfl | hp
    · exact hls
    · exact herased p hp

theorem spoiltBlock_levelsOk (k : Nat) : LevelsOk (spoiltBlock k) := by
  refine ⟨by simp [spoiltBlock], fun x hx => ?_⟩
  obtain ⟨i, -, rfl⟩ := List.mem_map.mp hx
  exact Nat.le_of_lt_succ (Config.spoiltLevel k i).isLt

/-- A block is written whole (R88, R92). -/
theorem MemoryLaw.written (h : MemoryLaw s) {b : Nat} {ls : List Nat} (hb : b < 1024) (hls : LevelsOk ls)
    (hmem : t.store.mem = writeBlock b ls s.store.mem) (hresv : t.store.resv = s.store.resv ∨ t.store.resv = none)
    (htrace : t.trace = s.trace ∨ traceLevels t.trace = []) (hroutes : t.routes = s.routes) : MemoryLaw t where
  canonical := by
    rw [hmem]
    exact writeBlock_wf b ls hb h.canonical
  levels := by
    rw [hmem]
    exact levelsOk_of_mem_writeBlock hls h.levels
  writing := by
    rcases hresv with k | k <;> rw [k]
    · exact h.writing
    · intro _ _ _ hr
      cases hr
  trace := by
    rcases htrace with k | k <;> rw [k]
    · exact h.trace
    · exact fun _ hx => absurd hx (List.not_mem_nil)
  lists := by rw [hroutes]; exact h.lists

/-- A route takes an entry whose block list is as long as its trace. -/
theorem MemoryLaw.setRoute (h : MemoryLaw s) (r : RouteNo) {e : RouteEntry}
    (he : ∀ b x, e.body = some b → b.baseline = some x → x.blocks.length * 1024 = b.acq.len)
    (hmem : t.store.mem = s.store.mem) (hresv : t.store.resv = s.store.resv ∨ t.store.resv = none)
    (htrace : t.trace = s.trace) (hroutes : t.routes = (Machine.setRoute r e s).routes) : MemoryLaw t := by
  have hsame : MemoryLaw { t with routes := s.routes } := h.of_eq hmem hresv (.inl htrace) rfl
  refine ⟨hsame.canonical, hsame.levels, hsame.writing, hsame.trace, fun i b x hb hx => ?_⟩
  rw [hroutes, setRoute_routes, getFin_set] at hb
  split at hb
  · exact he b x hb hx
  · exact h.lists i b x hb hx

/-- What a busy engine has gathered stays. -/
theorem GatheredLaw.of_eq (h : GatheredLaw s) (hrun : t.engine.running = s.engine.running)
    (hstate : t.engine.state = s.engine.state) (hacc : t.engine.acc = s.engine.acc)
    (hshots : t.engine.shotCount = s.engine.shotCount) (hresv : t.store.resv = s.store.resv) (htrace : t.trace = s.trace)
    (hroutes : t.routes = s.routes) : GatheredLaw t := by
  unfold GatheredLaw GatheredOk
  rw [hrun, hstate, hacc, hshots, hresv, htrace, hroutes]
  exact h

/-- Outside FIRING, ANALYSING and COMMITTING only the settings and the reservation count. -/
theorem GatheredLaw.of_state (h : GatheredLaw s) (hrun : t.engine.running = s.engine.running)
    (hstate : collects t.engine.state = false) (hresv : t.store.resv = s.store.resv ∨ t.store.resv = none)
    (hroutes : t.routes = s.routes) : GatheredLaw t := by
  intro run hr
  obtain ⟨hbody, hblocks, -⟩ := h run (hrun ▸ hr)
  refine ⟨by rw [hroutes]; exact hbody, fun r hr => ?_, ?_, ?_, ?_, ?_⟩
  · rcases hresv with k | k <;> rw [k] at hr
    · exact hblocks r hr
    · cases hr
  · rintro (hs | hs) <;> rw [hs] at hstate <;> cases hstate
  iterate 3
    intro hs
    rw [hs] at hstate
    cases hstate

theorem GatheredLaw.of_none (hrun : t.engine.running = none) : GatheredLaw t := by
  intro run hr
  rw [hrun] at hr
  cases hr

end

/-- The store, its contents and what the running acquisition has gathered are as the laws say. -/
structure ContentsOk (s : State) : Prop where
  card : StoreOk s
  memory : MemoryLaw s
  gathered : GatheredLaw s

namespace ContentsOk

variable {s t : State}

theorem of_eq (h : ContentsOk s) (hr : t.routes = s.routes) (hs : t.store = s.store) (ht : t.trace = s.trace)
    (he : t.engine = s.engine) (hshelf : t.shelf = s.shelf) : ContentsOk t where
  card := h.card.of_eq hr hs he hshelf
  memory := h.memory.of_eq (by rw [hs]) (.inl (by rw [hs])) (.inl ht) hr
  gathered := h.gathered.of_eq (by rw [he]) (by rw [he]) (by rw [he]) (by rw [he]) (by rw [hs]) ht hr

theorem queueOnly (h : ContentsOk s) (k : QueueOnly s t) : ContentsOk t := h.of_eq k.routes k.store k.trace k.engine k.shelf

/-- Whatever happens that leaves no acquisition running. -/
theorem of_none (hc : StoreOk t) (h : MemoryLaw s) (hmem : t.store.mem = s.store.mem)
    (hresv : t.store.resv = s.store.resv ∨ t.store.resv = none) (htrace : t.trace = s.trace ∨ traceLevels t.trace = [])
    (hroutes : t.routes = s.routes) (hrun : t.engine.running = none) : ContentsOk t :=
  ⟨hc, h.of_eq hmem hresv htrace hroutes, .of_none hrun⟩

theorem stopsAcquisition (h : ContentsOk s) (hstop : canStop s.engine.state = true) : ContentsOk (stopAcquisition s) :=
  of_none (h.card.stopsAcquisition hstop) h.memory (returnReservation_mem (frontOff s)) (returnReservation_resv (frontOff s))
    (.inl (stopAcquisition_portOnly s).trace) (stopAcquisition_portOnly s).routes (by rw [stopAcquisition_engine]; rfl)

theorem stopped (h : ContentsOk s) : ContentsOk (stopRunning s) := by
  rcases stopRunning_cases s with k | ⟨e, -, hstops, k⟩ <;> rw [k]
  · exact h
  have hwaiting : ContentsOk (waitingState e.id (stopAcquisition s)) :=
    (h.stopsAcquisition (Bool.and_eq_true_iff.mp hstops).1).queueOnly (setEntries_queueOnly _ _)
  exact hwaiting.queueOnly (mergeTwins_queueOnly e.route e.kind _)

/-- The taken acquisition's settings are those of its route, and its reservation has the blocks of its trace (R5, R7). -/
theorem takes (h : ContentsOk s) {e : Entry} (hidle : s.engine.state = .idle) : ContentsOk (takeEntry e s) := by
  have hnone := h.card.store.resv_none (.inl hidle)
  have hport := takeEntry_portOnly e s
  have hcard := h.card.takes (e := e) hidle
  rcases takeEntry_cases e s with ⟨-, k⟩ | ⟨b, hb, ⟨-, k⟩ | ⟨-, held, hr, k⟩ | ⟨-, -, k⟩⟩
  · rw [k]
    exact h
  · have hstore : (takeEntry e s).store = s.store := by
      rw [k, startSwitching_store]
      rfl
    refine ⟨hcard, h.memory.of_eq (by rw [hstore]) (.inl (by rw [hstore])) (.inl hport.trace) hport.routes, fun run hrun => ?_⟩
    rw [k, (startSwitching_running _ _).1] at hrun
    obtain rfl := Option.some.inj hrun
    refine ⟨⟨b, by rw [hport.routes]; exact hb, rfl⟩, fun r hr => ?_, ?_⟩
    · rw [hstore, hnone] at hr
      cases hr
    · rw [k, startSwitching_state]
      split <;> simp
  · rcases reserve_eq e.route ((s.engine.acq + 1) % 65536) (b.acq.len / 1024) (taken e b s) with ⟨-, k'⟩ | ⟨hle, k'⟩ <;>
      rw [k'] at hr
    · cases hr
    cases hr
    obtain ⟨-, -, -, -, hwhole, -⟩ := h.card.routes e.route b hb
    have hstore : (takeEntry e s).store = { s.store with
        free := s.store.free.drop (b.acq.len / 1024)
        resv := some { route := e.route, acq := (s.engine.acq + 1) % 65536
                       blocks := s.store.free.take (b.acq.len / 1024), phase := .held } } := by
      rw [k, startSwitching_store]
      rfl
    refine ⟨hcard, ?_, fun run hrun => ?_⟩
    · have hfree : MemoryLaw { takeEntry e s with store := s.store } :=
        h.memory.of_eq rfl (.inl rfl) (.inl hport.trace) hport.routes
      have hmem : (takeEntry e s).store.mem = s.store.mem := by rw [hstore]
      refine ⟨hmem ▸ hfree.canonical, hmem ▸ hfree.levels, fun r w data hr hp => ?_, hfree.trace, hfree.lists⟩
      rw [hstore] at hr
      obtain rfl := Option.some.inj hr
      cases hp
    · rw [k, (startSwitching_running _ _).1] at hrun
      obtain rfl := Option.some.inj hrun
      refine ⟨⟨b, by rw [hport.routes]; exact hb, rfl⟩, fun r hr => ?_, ?_⟩
      · rw [hstore] at hr
        obtain rfl := Option.some.inj hr
        have hfree : b.acq.len / 1024 ≤ s.store.free.length := hle
        show (s.store.free.take (b.acq.len / 1024)).length * 1024 = b.acq.len
        rw [List.length_take]
        omega
      · rw [k, startSwitching_state]
        split <;> simp
  · have hframe := leaveQueue_queueOnly e .storeFull e.reqs none (setRecord e.route
      (some (shortRecord { id := e.id, route := e.route, kind := e.kind, cls := e.cls, settings := b.acq }
        ((s.engine.acq + 1) % 65536) .storeFull s.clock.now)) { s with engine := { s.engine with
          acq := (s.engine.acq + 1) % 65536 } })
    have hstore : (takeEntry e s).store = s.store := by
      rw [k]
      exact hframe.store
    have hengine : (takeEntry e s).engine = { s.engine with acq := (s.engine.acq + 1) % 65536 } := by
      rw [k]
      exact hframe.engine
    refine ⟨hcard, h.memory.of_eq (by rw [hstore]) (.inl (by rw [hstore])) (.inl hport.trace) hport.routes, ?_⟩
    refine h.gathered.of_state (by rw [hengine]) ?_ (.inl (by rw [hstore])) hport.routes
    rw [hengine]
    exact congrArg collects hidle

theorem handsOut (h : ContentsOk s) : ContentsOk (handOut s) := handOut_keeps (fun _ _ h hmay => h.takes hmay.1) s h

theorem arbitrates (h : ContentsOk s) : ContentsOk (arbitrate s) :=
  arbitrate_keeps (fun _ h => h.stopped) (fun _ _ h hmay => h.takes hmay.1) s h

theorem covers (h : ContentsOk s) : ContentsOk (coverageReport s) :=
  coverageReport_keeps (fun _ h => h.stopped) (fun _ _ h hmay => h.takes hmay.1) s h

theorem reports (h : ContentsOk s) (was : RouteNo → Bool) : ContentsOk (routeReport was s) :=
  routeReport_keeps (fun _ h => h.stopped) (fun _ _ h hmay => h.takes hmay.1) was s h

theorem asks (h : ContentsOk s) (who : Nat) (r : RouteNo) (k : TestKind) (cls : TestClass) :
    ContentsOk (askTest who r k cls s).2 := by
  have hup (e : Entry) : ContentsOk (upgradedState who e s) := h.of_eq rfl rfl rfl rfl rfl
  have hplaced (id : Nat) : ContentsOk (placedState id who r k cls s) := h.of_eq rfl rfl rfl rfl rfl
  rcases askTest_placed who r k cls s with h' | ⟨-, -, ⟨e, -, -, -, -, h'⟩ | ⟨-, -, h'⟩⟩ <;> rw [h']
  · exact h
  · rcases joinEntry_cases who cls e s with ⟨-, k⟩ | ⟨-, k⟩ <;> rw [k]
    · exact (hup e).arbitrates
    · exact h.of_eq rfl rfl rfl rfl rfl
  · rcases newEntry_cases (freshId s.queue.entries 33 s.queue.counter) who r k cls s with ⟨-, k⟩ | ⟨-, k⟩ <;> rw [k]
    · exact (hplaced _).arbitrates
    · exact (hplaced _).handsOut

/-- The engine takes a new state where there is no reservation. -/
theorem concludes (st : EngineState) (hroutes : RouteLaw s) (hb : BlockLaw s) (hr : s.store.resv = none) (hs : s.shelf = none)
    (hm : MemoryLaw s) : ContentsOk (concludeIn st s) := by
  have hcard : StoreOk { s with engine := s.engine.freed st } := .of_none (hroutes.of_eq rfl) (hb.of_eq rfl rfl) hr hs
  have hok : ContentsOk { s with engine := s.engine.freed st } := of_none hcard hm rfl (.inl rfl) (.inl rfl) rfl rfl
  exact hok.handsOut

theorem homes (hroutes : RouteLaw s) (hb : BlockLaw s) (hr : s.store.resv = none) (hs : s.shelf = none) (hm : MemoryLaw s) :
    ContentsOk (homeSwitch s) := by
  have hcard := StoreOk.homes hroutes hb hr hs
  unfold homeSwitch at hcard ⊢
  split
  · exact concludes .idle hroutes hb hr hs hm
  · rename_i haway
    rw [if_neg haway] at hcard
    exact of_none hcard hm rfl (.inl rfl) (.inl rfl) rfl rfl

theorem finishMemory (hm : MemoryLaw s) (out : TestOutcome) (err : Option EquipKind) (held : Option HeldAnalysis)
    {j : Option Judgement} (hj : j = none ∨ EngineFixed s) : MemoryLaw (finishEntry out err held j s) := by
  have hframe := finishEntry_finishOnly out err held j s
  cases hrun : s.engine.running with
  | none =>
    rw [finishEntry_of_none hrun]
    exact hm
  | some run =>
    have hstore := (finishEntry_stands hrun out err held hj).store
    exact hm.of_eq (by rw [hstore]; exact returnReservation_mem s) (by rw [hstore]; exact returnReservation_resv s)
      (.inl hframe.trace) hframe.routes

/-- A finish: the entry and its acquisition are gone, the engine takes its new state (R16). -/
theorem ended (h : StoreOk s) (hm : MemoryLaw s) (hr : s.store.resv = none ∨ holdsState s.engine.state = true)
    (hs : s.shelf = none) (st : EngineState) (out : TestOutcome) (err : Option EquipKind) (held : Option HeldAnalysis)
    {j : Option Judgement} (hj : j = none ∨ EngineFixed s) : ContentsOk (concludeIn st (finishEntry out err held j s)) := by
  obtain ⟨hroutes, hb, hnone⟩ := h.finishes hr out err held hj
  exact concludes st hroutes hb hnone ((finishEntry_finishOnly out err held j s).shelf.trans hs)
    (finishMemory hm out err held hj)

theorem faultedEngine (h : ContentsOk s) (hs : s.shelf = none) : ContentsOk (faultEngine s) := by
  have hcard := h.card.faultedEngine hs
  rcases faultEngine_cases s with ⟨hstop, k⟩ | ⟨hstate, k⟩ | ⟨hstate, k⟩ <;> rw [k] at hcard ⊢
  · have hoff : ContentsOk (frontOff s) := h.of_eq rfl rfl rfl rfl rfl
    refine ended hoff.card hoff.memory (.inr ?_) hs .faulted .laserFault (some .laserFault) none (.inl rfl)
    exact Bool.or_eq_true_iff.mpr (.inl hstop)
  · exact ⟨hcard, h.memory.of_eq rfl (.inl rfl) (.inl rfl) rfl, h.gathered.of_eq rfl rfl rfl rfl rfl rfl rfl⟩
  · exact ⟨hcard, h.memory.of_eq rfl (.inl rfl) (.inl rfl) rfl, h.gathered.of_state rfl rfl (.inl rfl) rfl⟩

theorem laserFaulted (h : ContentsOk s) : ContentsOk (laserFault s) := by
  have hoff : ContentsOk { s with front := { s.front with laser := false } } := h.of_eq rfl rfl rfl rfl rfl
  rcases laserFault_cases s with ⟨-, k⟩ | ⟨hs, k⟩ <;> rw [k]
  · exact hoff
  · exact hoff.faultedEngine hs

theorem changes (h : ContentsOk s) (cause : CloseCause) (new : Vector Window 8) : ContentsOk (changeWindows cause new s) := by
  have hnew : ContentsOk { s with windows := new } := h.of_eq rfl rfl rfl rfl rfl
  rcases changeWindows_cases cause new s with ⟨-, k⟩ | ⟨-, k⟩ <;> rw [k]
  · exact hnew
  · exact (hnew.queueOnly ((logWrites_queueOnly (windowChanges cause s.windows new) { s with windows := new }).trans
      (raiseTo_queueOnly (fun _ => true) .window _))).covers

theorem edits (h : ContentsOk s) (i : WindowNo) (w : WindowSettings) : ContentsOk (acceptWindow i w s) := by
  have hnew : ContentsOk { s with windows := editedWindows i w s } := h.of_eq rfl rfl rfl rfl rfl
  rcases acceptWindow_cases i w s with ⟨-, k⟩ | ⟨-, k⟩ | ⟨-, k⟩ <;> rw [k]
  · exact h.changes _ _
  · exact hnew.covers
  · exact hnew

theorem rolls (h : ContentsOk s) : ContentsOk (tickClock s) := by
  have hnow : ContentsOk { s with clock := { s.clock with now := nextSecond s.clock.now } } := h.of_eq rfl rfl rfl rfl rfl
  rcases tickClock_cases s with ⟨-, k⟩ | ⟨-, -, k⟩ | ⟨-, -, -, k⟩ | ⟨-, -, -, k⟩ <;> rw [k]
  · exact h
  · exact hnow
  · exact h.of_eq rfl rfl rfl rfl rfl
  · exact hnow.changes _ _

theorem leavesFaulted (h : ContentsOk s) (hstate : s.engine.state = .faulted) : ContentsOk (leaveFaulted s) := by
  have hcard := h.card.leavesFaulted hstate
  have hs := h.card.store.shelf_none (.inl (by rw [hstate]; decide))
  unfold leaveFaulted at hcard ⊢
  split
  · rename_i hw
    rw [if_pos hw] at hcard
    exact of_none hcard h.memory rfl (.inl rfl) (.inl rfl) rfl rfl
  · rename_i hw
    refine homes h.card.routes h.card.blocks (resv_none_of_not_writeInFlight hw fun r hr hheld => ?_) hs h.memory
    have := (h.card.store.phase hr).mp hheld
    rw [hstate] at this
    cases this

end ContentsOk

end Sys2Proof.Machine
end

section
/-!
O10: the block contents, the levels on their way and the block lists through every request and every event.
-/
namespace Sys2Proof.Machine

/-- The running entry is of the route under test. -/
theorem RunLaw.routeRunning {s : State} (h : RunLaw s) {run : Running} (hrun : s.engine.running = some run) :
    routeRunning s run.route = true := by
  by_contra hfree
  rw [Bool.not_eq_true, routeRunning_eq_false_iff] at hfree
  cases hbusy : busyState s.engine.state with
  | true =>
    obtain ⟨run', e, hruns⟩ := h.runs hbusy
    obtain rfl := Option.some.inj (hrun.symm.trans hruns.engine)
    have := hfree e hruns.mem hruns.route
    rw [hruns.not_waiting] at this
    cases this
  | false =>
    rw [(h.waits hbusy).1] at hrun
    cases hrun

/-- The block `w` of a trace that has it whole (R88). -/
theorem traceBlock_levelsOk {t : TraceBuffer} {w : Nat} (hlen : (w + 1) * 1024 ≤ (traceLevels t).length)
    (hlevels : ∀ x ∈ traceLevels t, x ≤ 3610) : LevelsOk (traceBlock t w) := by
  refine ⟨?_, fun x hx => hlevels x (List.mem_of_mem_drop (List.mem_of_mem_take hx))⟩
  rw [traceBlock, List.length_take, List.length_drop]
  omega

theorem addShot_length {acc : List AccCell} {samples : List Sample} (h : samples.length = acc.length) :
    (addShot acc samples).length = acc.length := by
  rw [addShot, List.length_zipWith, h, Nat.min_self]

/-- One more shot adds at most the largest sample to each sum (R11). -/
theorem addShot_sum_le {n : Nat} : ∀ {acc : List AccCell} {samples : List Sample}, (∀ c ∈ acc, c.sum ≤ 65535 * n) →
    ∀ c ∈ addShot acc samples, c.sum ≤ 65535 * (n + 1)
  | [], _, _, _, hc => by simp [addShot] at hc
  | _ :: _, [], _, _, hc => by simp [addShot] at hc
  | a :: acc, x :: samples, h, c, hc => by
    rcases List.mem_cons.mp (show c ∈ _ :: addShot acc samples from hc) with rfl | hc
    · have := h a (by simp)
      have := x.isLt
      show a.sum + x.toNat ≤ _
      omega
    · exact addShot_sum_le (fun d hd => h d (by simp [hd])) c hc

theorem changesAcq_eq_false {e : RouteEntry} {d : RouteDef} {b : RouteBody} (hb : e.body = some b)
    (h : changesAcq e d = false) : b.acq = acqOf d := by
  simpa [changesAcq, hb] using h

namespace ContentsOk

variable {s t : State}

/-- A definition that keeps the baseline keeps the trace length; one that changes the settings is of no running route. -/
theorem defines (h : ContentsOk s) (hrun : RunLaw s) (c : Client) (r : RouteNo) (d : RouteDef)
    (free : (changesAcq s.routes[r] d && routeRunning s r) = false) (hcard : StoreOk (acceptDefinition c r d s)) :
    ContentsOk (acceptDefinition c r d s) := by
  have hframe := acceptDefinition_finishOnly c r d s
  have hengine := (acceptDefinition_stand c r d s).engine
  have hstore : (acceptDefinition c r d s).store.mem = s.store.mem ∧ (acceptDefinition c r d s).store.resv = s.store.resv := by
    rcases acceptDefinition_cases c r d s with ⟨-, k⟩ | ⟨-, k⟩ <;> rw [k]
    · rw [setUnknown_store]
      exact ⟨rfl, rfl⟩
    · exact ⟨rfl, rfl⟩
  have htrace : (acceptDefinition c r d s).trace = s.trace := hframe.trace
  refine ⟨hcard, h.memory.setRoute r (fun b x hb hx => ?_) hstore.1 (.inl hstore.2) htrace hframe.routes, fun run hr => ?_⟩
  · obtain rfl := Option.some.inj hb
    have hbase : (if changesAcq s.routes[r] d then none else s.routes[r].body.bind RouteBody.baseline) = some x := hx
    split at hbase
    · cases hbase
    rename_i hkeeps
    obtain ⟨old, hold, hx⟩ := Option.bind_eq_some_iff.mp hbase
    show x.blocks.length * 1024 = (acqOf d).len
    rw [← changesAcq_eq_false hold (by simpa using hkeeps)]
    exact h.memory.lists r old x hold hx
  · rw [hengine] at hr
    obtain ⟨⟨b, hb, hsettings⟩, hrest⟩ := h.gathered run hr
    refine ⟨?_, by rw [hengine, hstore.2, htrace]; exact hrest⟩
    rw [hframe.routes, setRoute_routes, getFin_set]
    split
    · rename_i hroute
      subst hroute
      rw [hrun.routeRunning hr, Bool.and_true] at free
      exact ⟨_, rfl, (changesAcq_eq_false hb free).symm.trans hsettings⟩
    · exact ⟨b, hb, hsettings⟩

theorem deletes (h : ContentsOk s) (hrun : RunLaw s) (c : Client) (r : RouteNo) (free : routeRunning s r = false)
    (hcard : StoreOk (acceptDeletion c r s)) : ContentsOk (acceptDeletion c r s) := by
  have hframe := acceptDeletion_finishOnly c r s
  have hqueue : QueueOnly (emptiedRoute c r s) (acceptDeletion c r s) := removeWaiting_queueOnly r _
  have hengine := hqueue.engine.trans (emptiedRoute_stand c r s).engine
  have hstore : (acceptDeletion c r s).store.mem = s.store.mem ∧ (acceptDeletion c r s).store.resv = s.store.resv := by
    rw [hqueue.store, emptiedRoute, setUnknown_store]
    exact ⟨rfl, rfl⟩
  have htrace : (acceptDeletion c r s).trace = s.trace := hframe.trace
  refine ⟨hcard, h.memory.setRoute r (fun b x hb => by cases hb) hstore.1 (.inl hstore.2) htrace hframe.routes, fun run hr => ?_⟩
  rw [hengine] at hr
  obtain ⟨⟨b, hb, hsettings⟩, hrest⟩ := h.gathered run hr
  refine ⟨⟨b, ?_, hsettings⟩, by rw [hengine, hstore.2, htrace]; exact hrest⟩
  rw [hframe.routes, setRoute_routes, getFin_set, if_neg]
  · exact hb
  · rintro rfl
    rw [hrun.routeRunning hr] at free
    cases free

theorem holds (h : ContentsOk s) (c : Client) (r : RouteNo) (x : HoldSet) : ContentsOk (changeHolds c r x s) := by
  have hcard : StoreOk (setRoute r { s.routes[r] with holds := x } s) :=
    ⟨h.card.routes.setRoute r (h.card.routes r), h.card.blocks.setRoute r rfl, h.card.store⟩
  have hbody (i : RouteNo) : (setRoute r { s.routes[r] with holds := x } s).routes[i].body = s.routes[i].body := by
    rw [setRoute_routes, getFin_set]
    split
    · rename_i hi
      subst hi
      rfl
    · rfl
  have hset : ContentsOk (setRoute r { s.routes[r] with holds := x } s) := by
    refine ⟨hcard, h.memory.setRoute r (e := { s.routes[r] with holds := x }) (h.memory.lists r) rfl (.inl rfl) rfl rfl, fun run hr => ?_⟩
    obtain ⟨⟨b, hb, hsettings⟩, hrest⟩ := h.gathered run hr
    exact ⟨⟨b, (hbody run.route).trans hb, hsettings⟩, hrest⟩
  have hlogged : ContentsOk (logWrite (.holdChange r c x) (setRoute r { s.routes[r] with holds := x } s)) :=
    hset.queueOnly (logWrite_queueOnly _ _)
  rcases changeHolds_cases c r x s with ⟨-, k⟩ | ⟨-, k⟩ <;> rw [k]
  · exact hlogged.reports _
  · exact hlogged

theorem work {c : Client} {wf : Prop} {code : Nat} (hw : Work c wf code s t) (h : ContentsOk s) (hrun : RunLaw s) :
    ContentsOk t := by
  induction hw with
  | nothing => exact h
  | test r k cl => exact h.asks _ r k cl
  | testGone r k cl => exact (h.asks (bitOf c) r k cl).of_eq rfl rfl rfl rfl rfl
  | cancelKept e => exact h.queueOnly ((setEntries_queueOnly _ _).trans (dropFromMarks_queueOnly _ _ _))
  | cancelWaiting e => exact h.queueOnly (leaveQueue_queueOnly _ _ _ _ _)
  | cancelRunning e acq mem runs stops =>
    exact ((h.stopsAcquisition (Bool.and_eq_true_iff.mp stops).1).queueOnly (leaveQueue_queueOnly _ _ _ _ _)).handsOut
  | define r d values zone free =>
    exact h.defines hrun c r d free (StoreOk.work (.define (wf := wf) (code := code) r d values zone free) h.card)
  | delete r defined free =>
    exact h.deletes hrun c r free (StoreOk.work (.delete (wf := wf) (code := code) r defined free) h.card)
  | holds r x => exact h.holds c r x
  | window i d w => exact h.edits i w
  | setAndStart set stopped ih | thresholdReached set ih => exact ih.of_eq rfl rfl rfl rfl rfl
  | stopClock =>
    have hu : ContentsOk (logWrite (.clock c .stopped) { s with clock := { s.clock with running := false } }) :=
      h.of_eq rfl rfl rfl rfl rfl
    exact hu.changes _ _
  | setClock | startClock | markDone | markOpens | setNotices | clearNotices | readLog | setDevice | clearEquipment | arm =>
    exact h.of_eq rfl rfl rfl rfl rfl
  | setBarred p d =>
    have hu : ContentsOk { s with device := d } := h.of_eq rfl rfl rfl rfl rfl
    exact hu.reports _
  | leaveFaulted state =>
    have hu : ContentsOk { s with equip := none } := h.of_eq rfl rfl rfl rfl rfl
    exact hu.leavesFaulted state

/-! ### Resets and the ends of writes -/

theorem begins (h : ContentsOk s) : ContentsOk (beginReset s) := by
  refine of_none h.card.begins h.memory (returnReservation_mem s) (returnReservation_resv s) ?_ (beginReset_routes s) rfl
  rw [beginReset_trace]
  split
  · exact .inl rfl
  · exact .inr rfl

theorem shelved (h : ContentsOk s) (hstate : s.engine.state = .recovering ∧ s.engine.timer = none) (k : Option ResetKind) :
    ContentsOk { s with shelf := k } :=
  ⟨h.card.shelved hstate k, h.memory.of_eq rfl (.inl rfl) (.inl rfl) rfl, h.gathered.of_eq rfl rfl rfl rfl rfl rfl rfl⟩

/-- The block of a write in flight is one of the 1,024. -/
theorem writing_lt (h : StoreOk s) {r : Reservation} (hr : s.store.resv = some r) {w : Nat} {data : List Nat}
    (hp : r.phase = .writing w data) : r.blocks.getD w 0 < 1024 := by
  by_contra hlarge
  have hplaces := h.blocks.places_eq (r.blocks.getD w 0)
  rw [if_neg hlarge] at hplaces
  have hcount : 0 < (reservedBlocks s).count (r.blocks.getD w 0) := by
    rw [reservedBlocks_some hr]
    exact List.count_pos_iff.mpr (h.store.writing_mem hr hp)
  unfold places at hplaces
  omega

theorem powerLoss_mem (s : State) :
    ((powerLoss s).store.mem = s.store.mem)
      ∨ ∃ r w data, s.store.resv = some r ∧ r.phase = .writing w data
        ∧ (powerLoss s).store.mem = writeBlock (r.blocks.getD w 0) (spoiltBlock s.freeCount) s.store.mem := by
  cases hb : s.store.resv.bind writingBlock with
  | none =>
    refine .inl ?_
    simp only [powerLoss, hb]
  | some x =>
    obtain ⟨w, b, data⟩ := x
    obtain ⟨r, hr, hw⟩ := Option.bind_eq_some_iff.mp hb
    obtain ⟨hp, rfl⟩ := writingBlock_eq_some.mp hw
    refine .inr ⟨r, w, data, hr, hp, ?_⟩
    simp only [powerLoss, hb]

/-- Power loss spoils the block of a write in flight (R97). -/
theorem losesPower (h : ContentsOk s) (k : Option ResetKind) : ContentsOk { powerLoss s with shelf := k } := by
  refine ⟨h.card.losesPower k, ?_, .of_none rfl⟩
  rcases powerLoss_mem s with hmem | ⟨r, w, data, hr, hp, hmem⟩
  · exact h.memory.of_eq hmem (.inr (powerLoss_resv s)) (.inr rfl) (powerLoss_routes s)
  · exact h.memory.written (writing_lt h.card hr hp) (spoiltBlock_levelsOk _) hmem (.inr (powerLoss_resv s)) (.inr rfl)
      (powerLoss_routes s)

theorem endsReset (k : ResetKind) (h : ContentsOk s) (hstate : s.engine.state = .recovering ∧ s.engine.timer = none) :
    ContentsOk (endReset k s) := by
  have hin : ContentsOk (inService k s) := (h.shelved hstate none).of_eq rfl rfl rfl rfl rfl
  rw [endReset_eq]
  split
  · exact hin
  · rename_i hwriting
    refine homes hin.card.routes hin.card.blocks (resv_none_of_not_writeInFlight (s := s) hwriting fun r hr hheld => ?_) rfl
      hin.memory
    have := (h.card.store.phase hr).mp hheld
    rw [hstate.1] at this
    cases this

/-- A write that a reset cut off has ended (R40, R96). -/
theorem cutsOff (hroutes : RouteLaw s) (hb : BlockLaw s) (hr : s.store.resv = none)
    (hheld : s.shelf.isSome = true → s.engine.state = .recovering ∧ s.engine.timer = none) (hm : MemoryLaw s)
    (hg : GatheredLaw s) (hstate : collects s.engine.state = false) : ContentsOk (cutOffEnds s) := by
  have hcard := StoreOk.cutsOff hroutes hb hr hheld
  have hempty : MemoryLaw { s with trace := .empty } := hm.of_eq rfl (.inl rfl) (.inr rfl) rfl
  unfold cutOffEnds resumeHoming at hcard ⊢
  split
  · rename_i hc
    have hshelf := Option.isNone_iff_eq_none.mp (Bool.and_eq_true_iff.mp hc).1
    exact homes (hroutes.of_eq rfl) (hb.of_eq rfl rfl) hr hshelf hempty
  · rename_i hc
    rw [if_neg hc] at hcard
    exact ⟨hcard, hempty, hg.of_state rfl hstate (.inl rfl) rfl⟩

/-- A write in flight outside COMMITTING is one that a reset cut off. -/
theorem collects_of_writing (h : StoreOk s) {r : Reservation} (hr : s.store.resv = some r) {w : Nat} {data : List Nat}
    (hp : r.phase = .writing w data) (hstate : s.engine.state ≠ .committing) : collects s.engine.state = false := by
  rcases (h.store.of_writing hr hp).2 with k | ⟨k, -⟩ | k
  · exact absurd k hstate
  · rw [k]
    rfl
  · rw [k]
    rfl

/-- A good write leaves the levels that were on their way (R88). -/
theorem writtenGood (h : ContentsOk s) {r : Reservation} (hr : s.store.resv = some r) {w : Nat} {data : List Nat}
    (hp : r.phase = .writing w data) : MemoryLaw (writeDone (r.blocks.getD w 0) data s) :=
  h.memory.written (writing_lt h.card hr hp) (h.memory.writing r w data hr hp) rfl (.inl rfl) (.inl rfl) rfl

theorem writtenBad (h : ContentsOk s) {r : Reservation} (hr : s.store.resv = some r) {w : Nat} {data : List Nat}
    (hp : r.phase = .writing w data) : MemoryLaw (writeLost r (r.blocks.getD w 0) s) := by
  have hlevels := spoiltBlock_levelsOk s.freeCount
  unfold writeLost
  generalize spoiltBlock s.freeCount = ls at hlevels ⊢
  exact h.memory.written (writing_lt h.card hr hp) hlevels rfl (.inr rfl) (.inl rfl) rfl

/-- The next block is written from a trace that has it whole (R88, R89). -/
theorem startsWriting (hm : MemoryLaw s) {w : Nat}
    (hlen : ∀ r, s.store.resv = some r → (w + 1) * 1024 ≤ (traceLevels s.trace).length) : MemoryLaw (startWrite w s) := by
  refine ⟨hm.canonical, hm.levels, fun r v data hr hp => ?_, hm.trace, hm.lists⟩
  obtain ⟨x, hx, rfl⟩ := Option.map_eq_some_iff.mp (show s.store.resv.map _ = some r from hr)
  obtain ⟨rfl, rfl⟩ := ReservePhase.writing.inj hp
  exact traceBlock_levelsOk (hlen x hx) hm.trace

/-- The committed block list is as long as its trace, whose settings are still those of the route (R68, R91). -/
theorem commitMemory (hm : MemoryLaw s) {run : Running} {r : Reservation} (x : HeldAnalysis)
    (hsettings : ∀ b, s.routes[run.route].body = some b → b.acq = run.settings)
    (hlen : r.blocks.length * 1024 = run.settings.len) : MemoryLaw (commitCapture run r x s) := by
  rcases commitCapture_cases run r x s with ⟨-, k⟩ | ⟨b, hb, k⟩ <;> rw [k]
  · exact hm.of_eq rfl (.inr rfl) (.inl rfl) rfl
  · have hframe := captureClear_finishOnly run.route run.id r.acq x.time { committedState run.route b r x s with
      store := { s.store with free := giveBack (baselineBlocks s.routes[run.route]) s.store.free, resv := none } }
    refine hm.setRoute run.route (e := committedEntry s.routes[run.route] b r x) (fun b' x' hb' hx' => ?_)
      (by rw [captureClear_store]) (.inr (by rw [captureClear_store])) hframe.trace hframe.routes
    obtain rfl := Option.some.inj hb'
    obtain rfl := Option.some.inj hx'
    show r.blocks.length * 1024 = b.acq.len
    rw [hlen, hsettings b hb]

end ContentsOk

end Sys2Proof.Machine
end

section
/-!
O10: the firing, the analysis and the block writes keep what is gathered and stored; with that every step does.
-/
namespace Sys2Proof.Machine

namespace ContentsOk

variable {s t : State}

/-- FIRING starts with a cleared accumulator (R10). -/
theorem firesAt (h : ContentsOk s) {run : Running} (hstate : s.engine.state = .liveCheck) (hrun : s.engine.running = some run) :
    ContentsOk (firingState run.settings.len s) := by
  refine ⟨h.card.moved (congrArg holdsState hstate) rfl rfl rfl rfl rfl, h.memory.of_eq rfl (.inl rfl) (.inl rfl) rfl,
    fun run' hr => ?_⟩
  obtain rfl := Option.some.inj (hrun.symm.trans hr)
  obtain ⟨hbody, hblocks, -⟩ := h.gathered run hrun
  refine ⟨hbody, hblocks, fun _ => ⟨List.length_replicate, fun c hc => ?_⟩, fun _ => Nat.two_pow_pos _, ?_, ?_⟩
  · obtain ⟨-, rfl⟩ := List.mem_replicate.mp hc
    exact Nat.zero_le _
  iterate 2
    intro hs
    cases hs

/-- A shot adds into the accumulator, position by position (R11). -/
theorem shot_gathered (h : GatheredLaw s) {run : Running} {samples : List Sample} (hstate : s.engine.state = .firing)
    (hrun : s.engine.running = some run) (hlen : samples.length = run.settings.len) :
    (addShot s.engine.acc samples).length = run.settings.len
      ∧ ∀ c ∈ addShot s.engine.acc samples, c.sum ≤ 65535 * (s.engine.shotCount + 1) := by
  obtain ⟨-, -, hacc, -⟩ := h run hrun
  obtain ⟨hacc, hsum⟩ := hacc (.inl hstate)
  exact ⟨(addShot_length (hlen.trans hacc.symm)).trans hacc, addShot_sum_le hsum⟩

/-- The trace of an analysis, whole and in range (R26, R29). -/
theorem cells_ok (h : GatheredLaw s) {run : Running} (hstate : s.engine.state = .analysing)
    (hrun : s.engine.running = some run) :
    (∀ x ∈ (traceCells (shotTarget run.settings) s.engine.acc).map TraceCell.level, x ≤ 3610)
      ∧ ((traceCells (shotTarget run.settings) s.engine.acc).map TraceCell.level).length = run.settings.len := by
  obtain ⟨-, -, hacc, -, hshots, -⟩ := h run hrun
  obtain ⟨hacc, hsum⟩ := hacc (.inr hstate)
  rw [hshots hstate] at hsum
  exact ⟨traceCells_level_le (Nat.two_pow_pos _) hsum, by simp [traceCells, hacc]⟩

/-- In COMMITTING the trace buffer holds the whole trace (R88). -/
theorem startWrite_gathered {run : Running} {w : Nat} (hbody : ∃ b, s.routes[run.route].body = some b ∧ b.acq = run.settings)
    (hblocks : ∀ r, s.store.resv = some r → r.blocks.length * 1024 = run.settings.len)
    (hstate : s.engine.state = .committing) (hlen : (traceLevels s.trace).length = run.settings.len) :
    GatheredOk (startWrite w s) run := by
  have hs : (startWrite w s).engine.state = .committing := hstate
  refine ⟨hbody, fun r hr => ?_, fun k => ?_, fun k => ?_, fun k => ?_, fun _ => hlen⟩
  · obtain ⟨x, hx, rfl⟩ := Option.map_eq_some_iff.mp (show s.store.resv.map _ = some r from hr)
    exact hblocks x hx
  · rcases k with k | k <;> exact absurd (hs.symm.trans k) (by decide)
  · exact absurd (hs.symm.trans k) (by decide)
  · exact absurd (hs.symm.trans k) (by decide)

theorem effect {wf : Prop} (he : Effect wf s t) (h : ContentsOk s) (hrun : RunLaw s) : ContentsOk t := by
  induction he with
  | nothing => exact h
  | assembly | sent | turnedAway | arrived | pulseEnds | faultEnds => exact h.of_eq rfl rfl rfl rfl rfl
  | framed c line after ih => exact ih (h.of_eq rfl rfl rfl rfl rfl) (hrun.of_eq rfl rfl)
  | busy c tag =>
    unfold refuseBusy
    dsimp only
    split
    · exact h.of_eq rfl rfl rfl rfl rfl
    · exact h
  | served c tag r ready may fits => exact (h.work (ownerOf_work r _ may fits) hrun).of_eq rfl rfl rfl rfl rfl
  | craftReset => exact h.begins.endsReset _ ⟨rfl, rfl⟩
  | shelfReset => exact h.begins.shelved ⟨rfl, rfl⟩ _
  | release k line => exact h.endsReset k (h.card.store.2 (by rw [line]; rfl))
  | powerOnHeld => exact h.losesPower _
  | powerOn => exact (h.losesPower (powerLoss _).shelf).endsReset _ ⟨rfl, rfl⟩
  | settled p state =>
    exact ⟨h.card.moved (by rw [state]; rfl) rfl rfl rfl rfl rfl, h.memory.of_eq rfl (.inl rfl) (.inl rfl) rfl,
      h.gathered.of_state rfl rfl (.inl rfl) rfl⟩
  | @homed s state timer =>
    exact concludes (s := { s with switch := .standing .home }) _ (h.card.routes.of_eq rfl) (h.card.blocks.of_eq rfl rfl)
      (h.card.store.resv_none (.inr ⟨state, timer⟩)) (h.card.store.shelf_none (.inr timer))
      (h.memory.of_eq rfl (.inl rfl) (.inl rfl) rfl)
  | stuck state =>
    obtain ⟨hroutes, hb, hr⟩ := h.card.finishes (.inr (by rw [state]; rfl)) .switchStuck (some .switchStuck) none (.inl rfl)
    exact homes hroutes hb hr ((finishEntry_finishOnly _ _ _ _ _).shelf.trans
      (h.card.store.shelf_none (.inl (by rw [state]; decide)))) (finishMemory h.memory _ _ _ (.inl rfl))
  | homeFailed state timer =>
    refine ⟨.of_none (h.card.routes.of_eq rfl) (h.card.blocks.of_eq rfl rfl) (h.card.store.resv_none (.inr ⟨state, timer⟩))
      (h.card.store.shelf_none (.inr timer)), h.memory.of_eq rfl (.inl rfl) (.inl rfl) rfl, ?_⟩
    exact h.gathered.of_state rfl rfl (.inl rfl) rfl
  | @liveLight s run rec state running =>
    have hu : ContentsOk { s with front := { s.front with checking := false, record := some rec } } :=
      h.of_eq rfl rfl rfl rfl rfl
    exact ended hu.card hu.memory (.inr (congrArg holdsState state)) (h.card.store.shelf_none (.inl (by rw [state]; decide)))
      _ _ _ _ (.inl rfl)
  | @fires s run rec state running =>
    have hu : ContentsOk { s with front := { s.front with checking := false, record := some rec } } :=
      h.of_eq rfl rfl rfl rfl rfl
    have hfiring := hu.firesAt state running
    rcases startFiring_cases run.settings.len { s with front := { s.front with checking := false, record := some rec } } with
      ⟨-, k⟩ | ⟨-, k⟩ <;> rw [k]
    · exact hfiring
    · exact hfiring.laserFaulted
  | @shot s run samples state running length more =>
    refine ⟨h.card.moved (by rw [state]; rfl) (congrArg holdsState state) rfl rfl rfl rfl,
      h.memory.of_eq rfl (.inl rfl) (.inl rfl) rfl, fun run' hr => ?_⟩
    obtain rfl := Option.some.inj (running.symm.trans hr)
    obtain ⟨hbody, hblocks, -⟩ := h.gathered run running
    refine ⟨hbody, hblocks, fun _ => shot_gathered h.gathered state running length, fun _ => more, fun hs => ?_, fun hs => ?_⟩ <;>
      exact absurd (state.symm.trans hs) (by decide)
  | @lastShot s run samples state running length last =>
    refine ⟨h.card.moved (by rw [state]; rfl) rfl rfl rfl rfl rfl,
      h.memory.of_eq rfl (.inl rfl) (.inr rfl) rfl, fun run' hr => ?_⟩
    obtain rfl := Option.some.inj (running.symm.trans hr)
    obtain ⟨hbody, hblocks, -, hbelow, -⟩ := h.gathered run running
    refine ⟨hbody, hblocks, fun _ => shot_gathered h.gathered state running length, fun hs => (by cases hs),
      fun _ => le_antisymm (hbelow state) last, fun hs => (by cases hs)⟩
  | @acqTimeout s state =>
    have hu : ContentsOk (frontOff s) := h.of_eq rfl rfl rfl rfl rfl
    exact ended hu.card hu.memory (.inr (congrArg holdsState state)) (h.card.store.shelf_none (.inl (by rw [state]; decide)))
      _ _ _ _ (.inl rfl)
  | @analysed s run f cells out j state running trace =>
    have hcard : StoreOk (holdTrace run f cells s) :=
      h.card.moved (congrArg holdsState state) (congrArg holdsState state) rfl rfl rfl rfl
    have hmemory : MemoryLaw (holdTrace run f cells s) :=
      ⟨h.memory.canonical, h.memory.levels, h.memory.writing, trace ▸ (cells_ok h.gathered state running).1, h.memory.lists⟩
    have hfixed : EngineFixed (holdTrace run f cells s) :=
      ⟨fun hi => absurd (state.symm.trans hi) (by decide), congrArg canStop state⟩
    exact ended hcard hmemory (.inr (congrArg holdsState state)) (h.card.store.shelf_none (.inl (by rw [state]; decide)))
      _ _ _ _ (.inr hfixed)
  | @commits s run f cells state running kind trace =>
    have hcard := StoreOk.effect (wf := wf) (.commits run f cells state running kind trace) h.card
    obtain ⟨hlevels, hlen⟩ := cells_ok h.gathered state running
    rw [← trace] at hlevels hlen
    obtain ⟨hbody, hblocks, -⟩ := h.gathered run running
    have hmemory : MemoryLaw { holdTrace run f cells s with
        engine := { (holdTrace run f cells s).engine with state := .committing } } :=
      ⟨h.memory.canonical, h.memory.levels, h.memory.writing, hlevels, h.memory.lists⟩
    refine ⟨hcard, startsWriting hmemory fun r hr => ?_, fun run' hr => ?_⟩
    · have hpos := List.length_pos_iff.mpr (h.card.store.1 r hr).1
      have := hblocks r hr
      show _ ≤ (cells.map TraceCell.level).length
      omega
    · obtain rfl := Option.some.inj (running.symm.trans hr)
      exact startWrite_gathered hbody hblocks rfl hlen
  | @nextWrite s r w data run state running resv phase more =>
    have hcard := StoreOk.effect (wf := wf) (.nextWrite r w data run state running resv phase more) h.card
    obtain ⟨hbody, hblocks, -, -, -, hlen⟩ := h.gathered run running
    refine ⟨hcard, startsWriting (h.writtenGood resv phase) fun x hx => ?_, fun run' hr => ?_⟩
    · have := hblocks r resv
      have := hlen state
      show _ ≤ (traceLevels s.trace).length
      omega
    · obtain rfl := Option.some.inj (running.symm.trans hr)
      exact startWrite_gathered hbody hblocks state (hlen state)
  | @captured s r w data run x state running held resv phase last =>
    obtain ⟨⟨b, hb, hsettings⟩, hblocks, -⟩ := h.gathered run running
    have hcard : StoreOk (writeDone (r.blocks.getD w 0) data s) := ⟨h.card.routes.of_eq rfl, h.card.blocks, h.card.store⟩
    obtain ⟨hroutes, hplaces, hr⟩ := hcard.commits resv run x
    have hshelf : (commitCapture run r x (writeDone (r.blocks.getD w 0) data s)).shelf = none :=
      (commitCapture_shelf _ _ _ _).trans (h.card.store.shelf_none (.inl (by rw [state]; decide)))
    have hmemory := commitMemory (h.writtenGood resv phase) x (fun b' hb' => by
      obtain rfl := Option.some.inj (hb.symm.trans hb')
      exact hsettings) (hblocks r resv)
    exact ended (.of_none hroutes hplaces hr hshelf) hmemory (.inl hr) hshelf _ _ _ _ (.inl rfl)
  | @storeError s r w data state resv phase =>
    have hshelf := h.card.store.shelf_none (.inl (by rw [state]; decide))
    have hcard : StoreOk (writeLost r (r.blocks.getD w 0) s) :=
      .of_none (h.card.routes.of_eq rfl) (h.card.losesWrite resv phase) rfl hshelf
    exact ended hcard (h.writtenBad resv phase) (.inl rfl) hshelf _ _ _ _ (.inl rfl)
  | @cutOffGood s r w data state resv phase =>
    have hfree := collects_of_writing h.card resv phase state
    exact cutsOff (h.card.routes.of_eq rfl) (h.card.blocks.returned resv rfl rfl rfl rfl) rfl h.card.store.2
      ((h.writtenGood resv phase).of_eq rfl (.inr rfl) (.inl rfl) rfl)
      (h.gathered.of_state rfl hfree (.inr rfl) rfl) hfree
  | @cutOffFailed s r w data state resv phase =>
    have hfree := collects_of_writing h.card resv phase state
    exact cutsOff (h.card.routes.of_eq rfl) (h.card.losesWrite resv phase) rfl h.card.store.2 (h.writtenBad resv phase)
      (h.gathered.of_state rfl hfree (.inr rfl) rfl) hfree
  | @laserFault s =>
    have hu : ContentsOk { s with front := { s.front with fault := true } } := h.of_eq rfl rfl rfl rfl rfl
    exact hu.laserFaulted
  | tick s => exact h.rolls

theorem step (hstep : Machine.step s = .next t) (h : ContentsOk s) (hrun : RunLaw s) : ContentsOk t := by
  unfold Machine.step at hstep
  split at hstep
  · cases hstep
    exact h
  · rename_i i rest _
    have hrest : ContentsOk { s with pending := rest } := h.of_eq rfl rfl rfl rfl rfl
    exact hrest.effect (exec_effect hstep) (hrun.of_eq rfl rfl)

end ContentsOk

/-- Settles O10: whatever goes into a block comes from a whole trace whose levels are in range. -/
theorem everyStepKeepsContentsAndEntryLaw : Obligations.EveryStepKeepsContentsAndEntryLaw := by
  intro s t _ hstep
  refine ⟨fun h => entryLaw_cardStable.step h hstep, fun hrun hroutes hstore hblocks hcontents => ?_⟩
  obtain ⟨hmemory, hgathered⟩ := contentsLaw_iff.mp hcontents
  have hok := ContentsOk.step hstep ⟨⟨hroutes, hblocks, hstore⟩, hmemory, hgathered⟩ hrun
  exact contentsLaw_iff.mpr ⟨hok.memory, hok.gathered⟩

end Sys2Proof.Machine
end

section
/-!
O2 and O3: every command completes but a record of a wrong length; what a frame spells is read back whole, and its characters
do what its request does.
-/
namespace Sys2Proof.Machine

/-! ### Every command completes -/

section
variable {s : State}

theorem takeFrame_completes (c : Client) (body : List Byte) (s : State) : ∃ t, takeFrame c body s = .next t := by
  unfold takeFrame
  split
  · split
    · exact ⟨_, rfl⟩
    · split
      · rename_i r _
        rw [serve_eq_exec, exec_on_eq]
        exact ⟨_, rfl⟩
      · exact ⟨_, rfl⟩
  · exact ⟨_, rfl⟩

theorem execCharacterReceived_completes (c : Client) (b : Byte) (s : State) : ∃ t, execCharacterReceived c b s = .next t := by
  unfold execCharacterReceived
  split
  · exact ⟨_, rfl⟩
  split
  case h_5 =>
    split
    · exact takeFrame_completes _ _ _
    · exact ⟨_, rfl⟩
  all_goals exact ⟨_, rfl⟩

theorem execReplySent_completes (c : Client) (s : State) : ∃ t, execReplySent c s = .next t := by
  simp only [execReplySent]
  split_ifs <;> exact ⟨_, rfl⟩

theorem execLiveCheckExpiry_completes (reading : Averaged) (s : State) : ∃ t, execLiveCheckExpiry reading s = .next t := by
  unfold execLiveCheckExpiry
  split
  · exact ⟨_, rfl⟩
  · split <;> exact ⟨_, rfl⟩

theorem execAnalysisComplete_completes (s : State) : ∃ t, execAnalysisComplete s = .next t := by
  unfold execAnalysisComplete
  split
  · split <;> exact ⟨_, rfl⟩
  · exact ⟨_, rfl⟩

theorem execBlockWriteGood_completes (s : State) : ∃ t, execBlockWriteGood s = .next t := by
  unfold execBlockWriteGood
  repeat' split
  all_goals exact ⟨_, rfl⟩

theorem execBlockWriteFailed_completes (s : State) : ∃ t, execBlockWriteFailed s = .next t := by
  unfold execBlockWriteFailed
  repeat' split
  all_goals exact ⟨_, rfl⟩

/-- A shot record is refused only for its length. -/
theorem execShotComplete_cases (acq : Nat) (samples : List Sample) (s : State) :
    (∃ t, execShotComplete acq samples s = .next t)
      ∨ execShotComplete acq samples s = .refused .recordLength
        ∧ ∃ run, s.engine.running = some run ∧ s.engine.state = .firing ∧ s.engine.acq = acq
            ∧ samples.length ≠ run.settings.len := by
  unfold execShotComplete
  cases hrun : s.engine.running with
  | none => exact .inl ⟨_, rfl⟩
  | some run =>
    dsimp only
    split
    · rename_i hfiring
      split
      · rename_i hlen
        exact .inr ⟨rfl, run, rfl, hfiring.1, hfiring.2, hlen⟩
      · exact .inl ⟨_, rfl⟩
    · exact .inl ⟨_, rfl⟩

theorem exec_completes_or_refused (i : Instr) (s : State) :
    (∃ t, exec i s = .next t)
      ∨ exec i s = .refused .recordLength
        ∧ ∃ acq samples run, i = .shotComplete acq samples ∧ s.engine.running = some run ∧ s.engine.state = .firing
            ∧ s.engine.acq = acq ∧ samples.length ≠ run.settings.len := by
  cases i with
  | characterReceived c b => exact .inl (execCharacterReceived_completes c b s)
  | replySent c => exact .inl (execReplySent_completes c s)
  | liveCheckExpiry reading => exact .inl (execLiveCheckExpiry_completes reading s)
  | analysisComplete => exact .inl (execAnalysisComplete_completes s)
  | blockWriteGood => exact .inl (execBlockWriteGood_completes s)
  | blockWriteFailed => exact .inl (execBlockWriteFailed_completes s)
  | shotComplete acq samples =>
    refine (execShotComplete_cases acq samples s).imp id fun ⟨h, run, hrun, hstate, hacq, hlen⟩ => ⟨h, ?_⟩
    exact ⟨acq, samples, run, rfl, hrun, hstate, hacq, hlen⟩
  | settled p =>
    refine .inl ?_
    show ∃ t, execSettled p s = .next t
    unfold execSettled
    split <;> exact ⟨_, rfl⟩
  | homeReached =>
    refine .inl ?_
    show ∃ t, execHomeReached s = .next t
    unfold execHomeReached
    split <;> exact ⟨_, rfl⟩
  | _ => exact .inl ⟨_, rfl⟩

end

/-- Settles O2: case by case over the commands; the queue of commands stands in every effect. -/
theorem onlyAWrongRecordIsRefused : Obligations.OnlyAWrongRecordIsRefused := by
  intro i s
  refine (exec_completes_or_refused i s).imp (fun ⟨t, ht⟩ => ⟨t, ht, ?_⟩) id
  exact (exec_effect ht).pending_eq

end Sys2Proof.Machine
end

section
/-!
The writers of a request's fields and their readers, one the inverse of the other (R184, Table 11-8).
-/
namespace Sys2Proof

/-! ### What is written is read back, and the bytes after it are left -/

theorem toNat_ofNat8 {n : Nat} (h : fits1 n = true) : (BitVec.ofNat 8 n).toNat = n := by
  rw [BitVec.toNat_ofNat]
  exact Nat.mod_eq_of_lt (of_decide_eq_true h)

theorem read1_bytes1 {n : Nat} (h : fits1 n = true) (t : List Byte) : read1 (bytes1 n ++ t) = some (n, t) := by
  show some ((BitVec.ofNat 8 n).toNat, t) = _
  rw [toNat_ofNat8 h]

theorem read2_bytes2 {n : Nat} (h : fits2 n = true) (t : List Byte) : read2 (bytes2 n ++ t) = some (n, t) := by
  have hn : n < 65536 := of_decide_eq_true h
  simp only [bytes2, List.cons_append, List.nil_append, read2, BitVec.toNat_ofNat, Option.some.injEq, Prod.mk.injEq, and_true]
  omega

theorem readOpt_bytesOpt {α : Type} {f : List Byte → Option (α × List Byte)} {g : α → List Byte} {o : Option α} {t : List Byte}
    (h : ∀ a, o = some a → f (g a ++ t) = some (a, t)) : readOpt f (bytesOpt g o ++ t) = some (o, t) := by
  cases o with
  | none => rfl
  | some a =>
    show readOpt f (1 :: (g a ++ t)) = _
    simp [readOpt, h a rfl]

theorem readOpt1_bytesOpt {o : Option Nat} (h : fitsOpt fits1 o = true) (t : List Byte) :
    readOpt read1 (bytesOpt bytes1 o ++ t) = some (o, t) :=
  readOpt_bytesOpt fun a ha => read1_bytes1 (by rw [ha] at h; exact h) t

theorem readOpt2_bytesOpt {o : Option Nat} (h : fitsOpt fits2 o = true) (t : List Byte) :
    readOpt read2 (bytesOpt bytes2 o ++ t) = some (o, t) :=
  readOpt_bytesOpt fun a ha => read2_bytes2 (by rw [ha] at h; exact h) t

theorem readFlag_bytesBool (b : Bool) (t : List Byte) : readFlag (bytesBool b ++ t) = some (b, t) := by
  cases b <;> rfl

theorem readSet_setWidth {n : Nat} (hn : n ≤ 8) (x : BitVec n) (t : List Byte) :
    readSet n (x.setWidth 8 :: t) = some (x, t) := by
  have hx : (x.setWidth 8).toNat = x.toNat := by
    rw [BitVec.toNat_setWidth]
    exact Nat.mod_eq_of_lt (x.isLt.trans_le (Nat.pow_le_pow_right (by decide) hn))
  simp [readSet, hx, x.isLt]

theorem readLabel_bytesLabel {cs : List Nat} (h : (fits1 cs.length && cs.all fits1) = true) (t : List Byte) :
    readLabel (bytesLabel cs ++ t) = some (cs, t) := by
  obtain ⟨hlen, hall⟩ := Bool.and_eq_true_iff.mp h
  have hmap : (cs.map (BitVec.ofNat 8)).map BitVec.toNat = cs := by
    rw [List.map_map]
    exact (List.map_congr_left fun n hn => toNat_ofNat8 (List.all_eq_true.mp hall n hn)).trans (List.map_id' cs)
  simp [bytesLabel, readLabel, toNat_ofNat8 hlen, hmap]

theorem readBarred_bytesBarred {o : Option (Nat × Nat)} (h : ∀ a b, o = some (a, b) → fits1 a = true ∧ fits1 b = true)
    (t : List Byte) : readBarred (bytesBarred o ++ t) = some (o, t) := by
  match o, h with
  | none, _ => rfl
  | some (a, b), h =>
    obtain ⟨ha, hb⟩ := h a b rfl
    simp [bytesBarred, readBarred, toNat_ofNat8 ha, toNat_ofNat8 hb]

theorem readRoutes_bytesRoutes (r : RouteSet) (t : List Byte) : readRoutes (bytesRoutes r ++ t) = some (r, t) := by
  have hjoin : r.extractLsb' 40 8 ++ r.extractLsb' 32 8 ++ r.extractLsb' 24 8 ++ r.extractLsb' 16 8 ++ r.extractLsb' 8 8
      ++ r.extractLsb' 0 8 = r := by
    iterate 5 rw [BitVec.extractLsb'_append_extractLsb'_eq_extractLsb' (by rfl)]
    exact BitVec.extractLsb'_eq_self
  show some (r.extractLsb' 40 8 ++ r.extractLsb' 32 8 ++ r.extractLsb' 24 8 ++ r.extractLsb' 16 8 ++ r.extractLsb' 8 8
    ++ r.extractLsb' 0 8, t) = _
  rw [hjoin]

/-! ### The larger parts -/

/-- A part that is read is handed to the rest of the parse. -/
theorem bind_read {α β : Type} {x : Option (α × List Byte)} {a : α} {t : List Byte} {f : α × List Byte → Option β}
    (h : x = some (a, t)) : (x >>= f) = f (a, t) := by
  rw [h]
  rfl

theorem readDef_bytesDef {d : RouteDef} (h : d.wellFormed = true) (t : List Byte) : readDef (bytesDef d ++ t) = some (d, t) := by
  simp only [RouteDef.wellFormed, Bool.and_eq_true] at h
  obtain ⟨⟨⟨⟨⟨⟨⟨⟨⟨⟨⟨⟨⟨hlabel, hpulse⟩, hspacing⟩, hlen⟩, hshots⟩, hindex⟩, hdead⟩, hwidth⟩, hloss⟩, htotal⟩, hend⟩, hreflect⟩,
    hfloor⟩, hconfirm⟩ := h
  have hread (u : List Byte) : readOpt readLabel (bytesOpt bytesLabel d.label ++ u) = some (d.label, u) := by
    refine readOpt_bytesOpt fun cs hcs => readLabel_bytesLabel ?_ u
    unfold RouteDef.labelFits at hlabel
    rw [hcs] at hlabel
    exact hlabel
  unfold bytesDef
  simp only [List.append_assoc]
  exact (bind_read (hread _)).trans <| (bind_read (read1_bytes1 hpulse _)).trans <| (bind_read (read1_bytes1 hspacing _)).trans <|
    (bind_read (read2_bytes2 hlen _)).trans <| (bind_read (read1_bytes1 hshots _)).trans <|
    (bind_read (read2_bytes2 hindex _)).trans <| (bind_read (read2_bytes2 hdead _)).trans <|
    (bind_read (read1_bytes1 hwidth _)).trans <| (bind_read (read2_bytes2 hloss _)).trans <|
    (bind_read (read2_bytes2 htotal _)).trans <| (bind_read (read1_bytes1 hend _)).trans <|
    (bind_read (read2_bytes2 hreflect _)).trans <| (bind_read (read2_bytes2 hfloor _)).trans (bind_read (read1_bytes1 hconfirm _))

theorem readWindowDef_bytesWindowDef {d : WindowDef} (h : d.wellFormed = true) (t : List Byte) :
    readWindowDef (bytesWindowDef d ++ t) = some (d, t) := by
  simp only [WindowDef.wellFormed, Bool.and_eq_true] at h
  obtain ⟨⟨⟨henabled, hhour⟩, hminute⟩, hduration⟩ := h
  simp only [readWindowDef, bytesWindowDef, List.append_assoc, List.cons_append, List.nil_append, read1_bytes1 henabled,
    read1_bytes1 hhour, read1_bytes1 hminute, readSet_setWidth (show 3 ≤ 8 by decide), readSet_setWidth (show 7 ≤ 8 by decide),
    read2_bytes2 hduration, readRoutes_bytesRoutes, Option.bind_eq_bind, Option.bind_some]

theorem readNoticeParts_bytesNoticeParts {p : NoticeParts} (h : p.wellFormed = true) (t : List Byte) :
    readNoticeParts (bytesNoticeParts p ++ t) = some (p, t) := by
  simp only [NoticeParts.wellFormed, Bool.and_eq_true] at h
  obtain ⟨⟨⟨⟨⟨⟨⟨⟨⟨hfault, hdone⟩, hwindow⟩, hequip⟩, hlog⟩, hclear⟩, hline⟩, hpolarity⟩, hpulse⟩, hthreshold⟩ := h
  simp only [readNoticeParts, bytesNoticeParts, List.append_assoc, readOpt1_bytesOpt hfault, readOpt1_bytesOpt hdone,
    readOpt1_bytesOpt hwindow, readOpt1_bytesOpt hequip, readOpt1_bytesOpt hlog, readOpt1_bytesOpt hclear,
    readOpt1_bytesOpt hline, readOpt1_bytesOpt hpolarity, readOpt1_bytesOpt hpulse, readOpt1_bytesOpt hthreshold,
    Option.bind_eq_bind, Option.bind_some]

theorem readDeviceParts_bytesDeviceParts {p : DeviceParts} (h : p.wellFormed = true) (t : List Byte) :
    readDeviceParts (bytesDeviceParts p ++ t) = some (p, t) := by
  simp only [DeviceParts.wellFormed, Bool.and_eq_true] at h
  obtain ⟨⟨hlive, htimeout⟩, hbarred⟩ := h
  have hread (u : List Byte) : readOpt readBarred (bytesOpt bytesBarred p.barred ++ u) = some (p.barred, u) := by
    refine readOpt_bytesOpt fun o ho => readBarred_bytesBarred (fun a b hab => ?_) u
    rw [ho, hab] at hbarred
    exact Bool.and_eq_true_iff.mp hbarred
  simp only [readDeviceParts, bytesDeviceParts, List.append_assoc, readOpt2_bytesOpt hlive, readOpt1_bytesOpt htimeout, hread,
    Option.bind_eq_bind, Option.bind_some]

theorem readSet_flagsByte (done window equip log : Bool) (t : List Byte) :
    readSet 4 (flagsByte done window equip log :: t)
      = some (BitVec.ofNat 4 (done.toNat + 2 * window.toNat + 4 * equip.toNat + 8 * log.toNat), t) := by
  cases done <;> cases window <;> cases equip <;> cases log <;> rfl

theorem flags_getLsbD (done window equip log : Bool) :
    let f := BitVec.ofNat 4 (done.toNat + 2 * window.toNat + 4 * equip.toNat + 8 * log.toNat)
    f.getLsbD 0 = done ∧ f.getLsbD 1 = window ∧ f.getLsbD 2 = equip ∧ f.getLsbD 3 = log := by
  revert done window equip log
  decide

theorem readAck_bytesAck (a : AckParts) (t : List Byte) : readAck (bytesAck a ++ t) = some (a, t) := by
  obtain ⟨hdone, hwindow, hequip, hlog⟩ := flags_getLsbD a.done a.window a.equip a.log
  simp only [readAck, bytesAck, List.append_assoc, List.cons_append, List.nil_append, readRoutes_bytesRoutes,
    readSet_setWidth (show 4 ≤ 8 by decide), readSet_flagsByte, Option.bind_eq_bind, Option.bind_some, hdone, hwindow, hequip,
    hlog]

/-- The parameters of a request are read back whole (R184). -/
theorem parseRequest_params {r : Request} (h : r.wellFormed = true) : parseRequest r.code r.params = some r := by
  rw [← List.append_nil r.params]
  cases r with
  | mark | startClock | stopClock | readClock | readNotices | readLog | readDevice | readEquipment | clearEquipment | reset => rfl
  | cancel n =>
    simp only [Request.code, Request.params, parseRequest, read2_bytes2 h, whole, Option.bind_eq_bind, Option.bind_some]
  | readQueue n | readRoute n | hold n | release n | clearHolds n | readWindow n =>
    simp only [Request.code, Request.params, parseRequest, read1_bytes1 h, whole, Option.bind_eq_bind, Option.bind_some]
  | setNotices p =>
    simp only [Request.code, Request.params, parseRequest, readNoticeParts_bytesNoticeParts h, whole, Option.bind_eq_bind,
      Option.bind_some]
  | setDevice p =>
    simp only [Request.code, Request.params, parseRequest, readDeviceParts_bytesDeviceParts h, whole, Option.bind_eq_bind,
      Option.bind_some]
  | ackNotices a =>
    simp only [Request.code, Request.params, parseRequest, readAck_bytesAck, whole, Option.bind_eq_bind, Option.bind_some]
  | test n k cl =>
    simp only [Request.wellFormed, Bool.and_eq_true] at h
    obtain ⟨⟨hn, hk⟩, hc⟩ := h
    simp only [Request.code, Request.params, parseRequest, List.append_assoc, read1_bytes1 hn, read1_bytes1 hk, read1_bytes1 hc,
      whole, Option.bind_eq_bind, Option.bind_some]
  | defineRoute n v d =>
    simp only [Request.wellFormed, Bool.and_eq_true] at h
    obtain ⟨⟨hn, hv⟩, hd⟩ := h
    simp only [Request.code, Request.params, parseRequest, List.append_assoc, read1_bytes1 hn, read2_bytes2 hv,
      readDef_bytesDef hd, whole, Option.bind_eq_bind, Option.bind_some]
  | deleteRoute n v =>
    simp only [Request.wellFormed, Bool.and_eq_true] at h
    obtain ⟨hn, hv⟩ := h
    simp only [Request.code, Request.params, parseRequest, List.append_assoc, read1_bytes1 hn, read2_bytes2 hv, whole,
      Option.bind_eq_bind, Option.bind_some]
  | readResult n o =>
    simp only [Request.wellFormed, Bool.and_eq_true] at h
    obtain ⟨hn, ho⟩ := h
    simp only [Request.code, Request.params, parseRequest, List.append_assoc, read1_bytes1 hn, readOpt1_bytesOpt ho, whole,
      Option.bind_eq_bind, Option.bind_some]
  | readTrace a o n =>
    simp only [Request.wellFormed, Bool.and_eq_true] at h
    obtain ⟨⟨ha, ho⟩, hn⟩ := h
    simp only [Request.code, Request.params, parseRequest, List.append_assoc, read2_bytes2 ha, read2_bytes2 ho, read1_bytes1 hn,
      whole, Option.bind_eq_bind, Option.bind_some]
  | readBaseline r o n e =>
    simp only [Request.wellFormed, Bool.and_eq_true] at h
    obtain ⟨⟨⟨hr, ho⟩, hn⟩, he⟩ := h
    simp only [Request.code, Request.params, parseRequest, List.append_assoc, read1_bytes1 hr, read2_bytes2 ho, read1_bytes1 hn,
      readOpt2_bytesOpt he, whole, Option.bind_eq_bind, Option.bind_some]
  | setWindow w d =>
    simp only [Request.wellFormed, Bool.and_eq_true] at h
    obtain ⟨hw, hd⟩ := h
    simp only [Request.code, Request.params, parseRequest, List.append_assoc, read1_bytes1 hw, readWindowDef_bytesWindowDef hd,
      whole, Option.bind_eq_bind, Option.bind_some]
  | setClock d n m go =>
    simp only [Request.wellFormed, Bool.and_eq_true] at h
    obtain ⟨⟨hd, hn⟩, hm⟩ := h
    simp only [Request.code, Request.params, parseRequest, List.append_assoc, read2_bytes2 hd, read1_bytes1 hn, read1_bytes1 hm,
      readFlag_bytesBool, whole, Option.bind_eq_bind, Option.bind_some]

/-- The two check bytes of a frame are the check, high byte first (R178). -/
theorem extract_bytes_append (k : BitVec 16) : k.extractLsb' 8 8 ++ k.extractLsb' 0 8 = k :=
  (BitVec.extractLsb'_append_extractLsb'_eq_extractLsb' rfl).trans BitVec.extractLsb'_eq_self

end Sys2Proof
end

section
/-!
O3: the characters of a frame, one after another, from HUNT to the request.
-/
namespace Sys2Proof.Machine

section
variable {c : Client} {s : State}

@[simp] theorem setRx_setRx (c : Client) (a b : Assembly) (s : State) : setRx c b (setRx c a s) = setRx c b s := by
  cases c <;> rfl

@[simp] theorem setRx_rx (c : Client) (a : Assembly) (s : State) : (perGet (setRx c a s).links c).rx = a := by
  cases c <;> rfl

@[simp] theorem setRx_shelf (c : Client) (a : Assembly) (s : State) : (setRx c a s).shelf = s.shelf := rfl

theorem setRx_of_rx {a : Assembly} (h : (perGet s.links c).rx = a) : setRx c a s = s := by
  subst h
  cases c <;> rfl

theorem exec_character_sync (hs : s.shelf = none) (hrx : (perGet s.links c).rx = .hunt) :
    exec (.characterReceived c 0xA5) s = .next (setRx c .length s) := by
  show execCharacterReceived c 0xA5 s = _
  simp [execCharacterReceived, hs, hrx]

theorem exec_character_length (hs : s.shelf = none) {b : Byte} (h2 : 2 ≤ b.toNat) (h250 : b.toNat ≤ 250) :
    exec (.characterReceived c b) (setRx c .length s) = .next (setRx c (.body b.toNat []) s) := by
  show execCharacterReceived c b _ = _
  simp [execCharacterReceived, hs, h2, h250]

theorem exec_character_body (hs : s.shelf = none) (b : Byte) {n : Nat} {got : List Byte} (h : got.length + 1 < n) :
    exec (.characterReceived c b) (setRx c (.body n got) s) = .next (setRx c (.body n (got ++ [b])) s) := by
  show execCharacterReceived c b _ = _
  simp [execCharacterReceived, hs, h]

theorem exec_character_lastBody (hs : s.shelf = none) (b : Byte) {n : Nat} {got : List Byte} (h : got.length + 1 = n) :
    exec (.characterReceived c b) (setRx c (.body n got) s) = .next (setRx c (.check (got ++ [b]) none) s) := by
  show execCharacterReceived c b _ = _
  simp [execCharacterReceived, hs, h]

theorem exec_character_check (hs : s.shelf = none) (b : Byte) {body : List Byte} :
    exec (.characterReceived c b) (setRx c (.check body none) s) = .next (setRx c (.check body (some b)) s) := by
  show execCharacterReceived c b _ = _
  simp [execCharacterReceived, hs]

theorem exec_character_done (hs : s.shelf = none) {low high : Byte} {body : List Byte} (h : checkAgrees body high low = true) :
    exec (.characterReceived c low) (setRx c (.check body (some high)) s) = takeFrame c body (setRx c .hunt s) := by
  show execCharacterReceived c low _ = _
  simp [execCharacterReceived, hs, h]

theorem receiveAll_cons {b : Byte} {bs : List Byte} {t : State} (h : exec (.characterReceived c b) s = .next t) :
    receiveAll c (b :: bs) s = receiveAll c bs t := by
  simp only [receiveAll, h]

theorem receiveAll_last {b : Byte} {t : State} (h : exec (.characterReceived c b) s = .next t) :
    receiveAll c [b] s = .next t := by
  simp only [receiveAll, h]

/-- The body of a frame is gathered byte by byte. -/
theorem receiveAll_body (hs : s.shelf = none) (rest : List Byte) (n : Nat) : ∀ (body got : List Byte), body ≠ [] →
    got.length + body.length = n →
    receiveAll c (body ++ rest) (setRx c (.body n got) s) = receiveAll c rest (setRx c (.check (got ++ body) none) s)
  | [], _, h, _ => absurd rfl h
  | [b], got, _, hn => receiveAll_cons (exec_character_lastBody hs b hn)
  | b :: b' :: body, got, _, hn => by
    have hmore : got.length + 1 < n := by
      simp only [List.length_cons] at hn
      omega
    rw [List.cons_append, receiveAll_cons (exec_character_body hs b hmore),
      receiveAll_body hs rest n (b' :: body) (got ++ [b]) (by simp) (by simp only [List.length_append, List.length_cons, List.length_nil] at hn ⊢; omega)]
    simp

theorem takeFrame_body (tag : Byte) {r : Request} (h : r.wellFormed = true) (c : Client) (s : State) :
    takeFrame c (r.body tag) s = exec (r.on c tag) s := by
  obtain ⟨h1, h28⟩ := r.code_known
  have hcode : (BitVec.ofNat 8 r.code).toNat = r.code := toNat_ofNat8 (decide_eq_true (by omega))
  have hknown : knownCode r.code = true := by
    unfold knownCode
    simp [h1, h28]
  simp only [takeFrame, Request.body, hcode, hknown, parseRequest_params h]
  exact serve_eq_exec c tag r s

/-- The characters of a request's frame, from HUNT, do what the request does (R177, R178, R180). -/
theorem receiveAll_frame {tag : Byte} {r : Request} (h : r.wellFormed = true) (hlen : (r.body tag).length ≤ 250)
    (hs : s.shelf = none) (hrx : (perGet s.links c).rx = .hunt) : receiveAll c (r.frame tag) s = exec (r.on c tag) s := by
  have hpos : 2 ≤ (r.body tag).length := by
    simp only [Request.body, List.length_cons]
    omega
  have hbyte : (BitVec.ofNat 8 (r.body tag).length).toNat = (r.body tag).length := toNat_ofNat8 (decide_eq_true (by omega))
  have hagrees : checkAgrees (r.body tag) ((frameCheck (BitVec.ofNat 8 (r.body tag).length :: r.body tag)).extractLsb' 8 8)
      ((frameCheck (BitVec.ofNat 8 (r.body tag).length :: r.body tag)).extractLsb' 0 8) = true := by
    unfold checkAgrees
    rw [extract_bytes_append]
    exact beq_self_eq_true _
  unfold Request.frame frameBytes
  dsimp only
  rw [receiveAll_cons (exec_character_sync hs hrx),
    receiveAll_cons (exec_character_length hs (by rw [hbyte]; exact hpos) (by rw [hbyte]; exact hlen)), hbyte,
    receiveAll_body hs _ _ (r.body tag) [] (by simp [Request.body]) (by simp), receiveAll_cons (exec_character_check hs _)]
  have hdone := exec_character_done (c := c) hs hagrees
  rw [setRx_of_rx hrx, takeFrame_body tag h, exec_on_eq] at hdone
  rw [exec_on_eq]
  exact receiveAll_last hdone

end

/-- Settles O3: writers and readers are inverse field by field, and the assembly moves byte by byte through the frame. -/
theorem framesReachTheirRequest : Obligations.FramesReachTheirRequest := by
  refine ⟨?_, fun _ => parseRequest_params, fun c tag r s h hlen hs hrx => receiveAll_frame h hlen hs hrx⟩
  rintro c tag n m k o go d w p a v rs rfl
  exact ⟨rfl, rfl⟩

end Sys2Proof.Machine
end

section
/-!
O17: while the shelf reset line holds the card, the engine rests in RECOVERING with no timer and every link, notice and entry is
gone, so that no event finds anything to act on but the clock, the switch, the laser fault and a write in flight.
-/
namespace Sys2Proof.Machine

/-- `t` is `s`, still held, but for the switch, the fault line, the store, the trace buffer, the clock and the windows. -/
structure StandsHeld (k : ResetKind) (s t : State) : Prop where
  held : Held k t
  device : t.device = s.device
  routes : t.routes = s.routes
  faults : t.faults = s.faults
  links : t.links = s.links

section
variable {k : ResetKind} {s t : State}

theorem Held.shelf (h : Held k s) : s.shelf = some k := h.2.1

theorem Held.engine (h : Held k s) : s.engine = recovering none := by
  obtain ⟨-, -, -, -, hengine⟩ := h
  exact hengine

theorem Held.running (h : Held k s) : s.engine.running = none := by rw [h.engine]; rfl

theorem Held.owed (h : Held k s) (c : Client) : (perGet s.links c).owed = [] := by
  obtain ⟨-, -, -, -, -, -, -, -, hlinks, -⟩ := h.1
  rw [hlinks]
  cases c <;> rfl

theorem Held.endPulse (h : Held k s) (c : Client) : perSet s.notices c (endPulse (perGet s.notices c)) = s.notices := by
  obtain ⟨-, -, -, -, -, -, -, hnotices, -⟩ := h.1
  rw [hnotices]
  cases c <;> rfl

theorem Held.frontOff (h : Held k s) : { s.front with laser := false } = s.front := by
  obtain ⟨hlaser, -⟩ := h.1
  rw [← hlaser]

/-- What a held card may change without ending the hold. -/
theorem Held.stands (h : Held k s) (hfront : { t.front with fault := s.front.fault } = s.front) (hequip : t.equip = s.equip)
    (htrace : writeInFlight t = false → t.trace = .empty) (hrecords : t.records = s.records) (hcands : t.cands = s.cands)
    (hqueue : t.queue = s.queue) (hnotices : t.notices = s.notices) (hlinks : t.links = s.links) (hlog : t.log = s.log)
    (harmed : t.craftArmed = s.craftArmed) (hshelf : t.shelf = s.shelf) (hengine : t.engine = s.engine)
    (hdevice : t.device = s.device) (hroutes : t.routes = s.routes) (hfaults : t.faults = s.faults) : StandsHeld k s t := by
  refine ⟨?_, hdevice, hroutes, hfaults, hlinks⟩
  unfold Held Emptied at h ⊢
  rw [← hfront] at h
  rw [hequip, hrecords, hcands, hqueue, hnotices, hlinks, hlog, harmed, hshelf, hengine]
  obtain ⟨⟨hlaser, hchecking, hrecord, he, -, hrest⟩, hheld⟩ := h
  exact ⟨⟨hlaser, hchecking, hrecord, he, htrace, hrest⟩, hheld⟩

theorem Held.trace (h : Held k s) (hw : writeInFlight s = false) : s.trace = .empty := by
  obtain ⟨-, -, -, -, htrace, -⟩ := h.1
  exact htrace hw

theorem StandsHeld.refl (h : Held k s) : StandsHeld k s s := ⟨h, rfl, rfl, rfl, rfl⟩

/-- The switch or the laser-fault line moves. -/
theorem Held.moved (h : Held k s) (at_ : SwitchPos) (fault : Bool) :
    StandsHeld k s { s with switch := at_, front := { s.front with fault := fault } } :=
  h.stands rfl rfl h.trace rfl rfl rfl rfl rfl rfl rfl rfl rfl rfl rfl rfl

/-- The clock goes on, with no report to the Test Queue (R158). -/
theorem Held.ticked (h : Held k s) : StandsHeld k s (tickClock s) := by
  have hgone (now : Clock) (new : Vector Window 8) : StandsHeld k s { s with clock := now, windows := new } :=
    h.stands rfl rfl h.trace rfl rfl rfl rfl rfl rfl rfl rfl rfl rfl rfl rfl
  rcases tickClock_cases s with ⟨-, k⟩ | ⟨-, -, k⟩ | ⟨-, -, -, k⟩ | ⟨-, -, hshelf, -⟩
  · rw [k]
    exact .refl h
  · rw [k]
    exact hgone _ _
  · rw [k]
    exact hgone _ _
  · rw [h.shelf] at hshelf
    cases hshelf

/-- The end of a write in flight empties the trace buffer and gives its reservation back; no homing follows (R24, R40, R96). -/
theorem Held.cutOff (h : Held k s) (store : Store) (count : Nat) :
    StandsHeld k s (cutOffEnds { s with store := store, freeCount := count }) := by
  have hwaits : cutOffEnds { s with store := store, freeCount := count }
      = { s with store := store, freeCount := count, trace := .empty } := by
    unfold cutOffEnds resumeHoming
    simp [h.shelf]
  rw [hwaits]
  exact h.stands rfl rfl (fun _ => rfl) rfl rfl rfl rfl rfl rfl rfl rfl rfl rfl rfl rfl

theorem Held.writeGood (h : Held k s) (hexec : execBlockWriteGood s = .next t) :
    StandsHeld k s t ∧ t.clock = s.clock ∧ t.windows = s.windows := by
  have hstate : s.engine.state ≠ .committing := by
    rw [h.engine]
    decide
  unfold execBlockWriteGood at hexec
  split at hexec
  · cases hexec
    exact ⟨.refl h, rfl, rfl⟩
  · split at hexec
    · cases hexec
      exact ⟨.refl h, rfl, rfl⟩
    · rename_i r _ w b data _
      dsimp only at hexec
      rw [if_neg hstate] at hexec
      cases hexec
      exact ⟨h.cutOff _ s.freeCount, (cutOffEnds_portOnly _).clock, (cutOffEnds_portOnly _).windows⟩

theorem Held.writeFailed (h : Held k s) (hexec : execBlockWriteFailed s = .next t) :
    StandsHeld k s t ∧ t.clock = s.clock ∧ t.windows = s.windows := by
  have hstate : s.engine.state ≠ .committing := by
    rw [h.engine]
    decide
  unfold execBlockWriteFailed at hexec
  split at hexec
  · cases hexec
    exact ⟨.refl h, rfl, rfl⟩
  · split at hexec
    · cases hexec
      exact ⟨.refl h, rfl, rfl⟩
    · rename_i r _ _ b _ _
      dsimp only at hexec
      rw [if_neg hstate] at hexec
      cases hexec
      exact ⟨h.cutOff _ (s.freeCount + 1), (cutOffEnds_portOnly _).clock, (cutOffEnds_portOnly _).windows⟩

theorem request_held {c : Client} {tag : Byte} {code : Nat} {own : Owner} (h : s.shelf ≠ none)
    (hexec : request c tag code own s = .next t) : t = s := by
  cases hexec
  exact onLink_held c tag code _ h

/-- No command but the release and POWER_ON ends the hold, and only the clock's change clock and windows. -/
theorem Held.exec (h : Held k s) {i : Instr} (hpower : i ≠ .powerOn) (hrelease : i ≠ .shelfResetRelease)
    (hexec : Machine.exec i s = .next t) :
    StandsHeld k s t ∧ (i ≠ .tick → i ≠ .minuteRollover → (∀ w, i ≠ .windowCountExpiry w) →
      t.clock = s.clock ∧ t.windows = s.windows) := by
  have hsome : s.shelf ≠ none := by
    rw [h.shelf]
    exact Option.some_ne_none k
  have hisSome : s.shelf.isSome = true := by
    rw [h.shelf]
    rfl
  have hstill : StandsHeld k s s ∧ s.clock = s.clock ∧ s.windows = s.windows := ⟨.refl h, rfl, rfl⟩
  have hkept : StandsHeld k s t ∧ t.clock = s.clock ∧ t.windows = s.windows →
      StandsHeld k s t ∧ (i ≠ .tick → i ≠ .minuteRollover → (∀ w, i ≠ .windowCountExpiry w) →
        t.clock = s.clock ∧ t.windows = s.windows) := fun ⟨hs, hr⟩ => ⟨hs, fun _ _ _ => hr⟩
  cases i with
  | powerOn => exact absurd rfl hpower
  | shelfResetRelease => exact absurd rfl hrelease
  | tick =>
    cases hexec
    exact ⟨h.ticked, fun hne => absurd rfl hne⟩
  | minuteRollover =>
    cases hexec
    refine ⟨?_, fun _ hne => absurd rfl hne⟩
    split
    · exact h.ticked
    · exact .refl h
  | windowCountExpiry w =>
    cases hexec
    refine ⟨?_, fun _ _ hne => absurd rfl (hne w)⟩
    split
    · exact h.ticked
    · exact .refl h
  | characterReceived c b =>
    refine hkept ?_
    have hexec : execCharacterReceived c b s = .next t := hexec
    rw [execCharacterReceived, if_pos hisSome] at hexec
    cases hexec
    exact hstill
  | framingError c | gapTimerExpiry c | craftReset | shelfReset =>
    refine hkept ?_
    cases hexec
    rw [if_pos hisSome]
    exact hstill
  | replySent c =>
    refine hkept ?_
    have hexec : execReplySent c s = .next t := hexec
    simp only [execReplySent] at hexec
    rw [if_pos (h.owed c)] at hexec
    cases hexec
    exact hstill
  | settled p =>
    refine hkept ?_
    have hexec : execSettled p s = .next t := hexec
    unfold execSettled at hexec
    split at hexec
    · dsimp only at hexec
      rw [if_neg (by rw [h.engine]; simp [recovering])] at hexec
      cases hexec
      exact ⟨h.moved _ s.front.fault, rfl, rfl⟩
    · cases hexec
      exact hstill
  | homeReached =>
    refine hkept ?_
    have hexec : execHomeReached s = .next t := hexec
    unfold execHomeReached at hexec
    split at hexec
    · dsimp only at hexec
      rw [if_neg (by rw [h.engine]; simp [recovering])] at hexec
      cases hexec
      exact ⟨h.moved _ s.front.fault, rfl, rfl⟩
    · cases hexec
      exact hstill
  | switchStuck | homeFailed | acqTimeout =>
    refine hkept ?_
    cases hexec
    rw [if_neg (by rw [h.engine]; simp [recovering])]
    exact hstill
  | liveCheckExpiry reading =>
    refine hkept ?_
    have hexec : execLiveCheckExpiry reading s = .next t := hexec
    rw [execLiveCheckExpiry, h.running] at hexec
    cases hexec
    exact hstill
  | shotComplete acq samples =>
    refine hkept ?_
    have hexec : execShotComplete acq samples s = .next t := hexec
    rw [execShotComplete, h.running] at hexec
    cases hexec
    exact hstill
  | analysisComplete =>
    refine hkept ?_
    have hexec : execAnalysisComplete s = .next t := hexec
    rw [execAnalysisComplete, if_neg (by rw [h.engine]; simp [recovering])] at hexec
    cases hexec
    exact hstill
  | blockWriteGood => exact hkept (h.writeGood hexec)
  | blockWriteFailed => exact hkept (h.writeFailed hexec)
  | laserFaultSignal =>
    refine hkept ?_
    cases hexec
    rcases laserFault_cases { s with front := { s.front with fault := true } } with ⟨-, k⟩ | ⟨hshelf, -⟩
    · rw [k]
      refine ⟨?_, rfl, rfl⟩
      exact h.stands h.frontOff rfl h.trace rfl rfl rfl rfl rfl rfl rfl rfl rfl rfl rfl rfl
    · exact absurd hshelf hsome
  | pulseTimerExpiry c =>
    refine hkept ?_
    cases hexec
    rw [h.endPulse c]
    exact hstill
  | laserFaultEnds =>
    cases hexec
    exact hkept ⟨h.moved s.switch false, rfl, rfl⟩
  | _ =>
    obtain rfl := request_held hsome hexec
    exact hkept hstill

end

/-- Settles O17: the requests by the discard at the link, the events by the state in which the hold leaves the card. -/
theorem holdStandsStill : Obligations.HoldStandsStill := by
  refine ⟨fun c tag r s hs => by rw [exec_on_eq, onLink_held c tag _ _ hs], fun k i s t h hpower hrelease hexec => ?_⟩
  obtain ⟨hstands, hclock⟩ := h.exec hpower hrelease hexec
  exact ⟨hstands.held, hstands.device, hstands.routes, hstands.faults, hstands.links, hclock⟩

end Sys2Proof.Machine
end

section
/-!
O20: the check of a frame bit by bit, the bytes of numbers and sets, and the layouts of the replies.
-/
namespace Sys2Proof.Machine

/-! ### The check (R178) -/

theorem frameCheck_concat (bs : List Byte) (b : Byte) : frameCheck (bs ++ [b]) = crcByte (frameCheck bs) b := by
  unfold frameCheck
  rw [List.foldl_append]
  rfl

/-- Feeding a byte whole is feeding its bits one after another, the most significant first. -/
theorem crcBit_iterate {r : BitVec 16} {b : Byte} {reg : Nat → BitVec 16} (h0 : reg 0 = r)
    (hstep : ∀ i, i < 8 → reg (i + 1) = (reg i <<< 1) ^^^ (if (reg i).getLsbD 15 = b.getLsbD (7 - i) then 0 else 0x1021)) :
    ∀ i, i ≤ 8 → crcBit^[i] (r ^^^ (b.setWidth 16 <<< 8)) = reg i ^^^ ((b.setWidth 16 <<< 8) <<< i)
  | 0, _ => by rw [Function.iterate_zero_apply, h0, BitVec.shiftLeft_zero]
  | i + 1, hi => by
    have hbit : ((b.setWidth 16 <<< 8) <<< i).getLsbD 15 = b.getLsbD (7 - i) := by
      simp only [BitVec.getLsbD_shiftLeft, BitVec.getLsbD_setWidth]
      have h1 : ¬15 < i := by omega
      have h2 : ¬15 - i < 8 := by omega
      have h3 : 15 - i - 8 = 7 - i := by omega
      have h4 : 15 - i < 16 := by omega
      have h5 : 7 - i < 16 := by omega
      simp [h1, h2, h3, h4, h5]
    have hmsb : (reg i ^^^ ((b.setWidth 16 <<< 8) <<< i)).msb = ((reg i).getLsbD 15 ^^ b.getLsbD (7 - i)) := by
      rw [BitVec.msb_eq_getLsbD_last, BitVec.getLsbD_xor, hbit]
    have hshift : (b.setWidth 16 <<< 8) <<< (i + 1) = ((b.setWidth 16 <<< 8) <<< i) <<< 1 := BitVec.shiftLeft_add _ i 1
    rw [Function.iterate_succ_apply', crcBit_iterate h0 hstep i (by omega), hstep i (by omega), crcBit, hmsb, hshift,
      BitVec.shiftLeft_xor_distrib]
    by_cases heq : (reg i).getLsbD 15 = b.getLsbD (7 - i)
    · rw [if_pos heq, heq, Bool.xor_self, if_neg Bool.false_ne_true]
      exact congrArg (· ^^^ _) BitVec.xor_zero.symm
    · rw [if_neg heq, if_pos (bne_iff_ne.mpr heq), BitVec.xor_assoc, BitVec.xor_assoc]
      congr 1
      exact BitVec.xor_comm _ _

theorem crcByte_eq {r : BitVec 16} {b : Byte} {reg : Nat → BitVec 16} (h0 : reg 0 = r)
    (hstep : ∀ i, i < 8 → reg (i + 1) = (reg i <<< 1) ^^^ (if (reg i).getLsbD 15 = b.getLsbD (7 - i) then 0 else 0x1021)) :
    crcByte r b = reg 8 := by
  have hgone : (b.setWidth 16 <<< 8) <<< 8 = 0#16 := by
    rw [← BitVec.shiftLeft_add]
    exact BitVec.shiftLeft_eq_zero (by decide)
  rw [crcByte, crcBit_iterate h0 hstep 8 (le_refl 8), hgone, BitVec.xor_zero]

/-! ### Numbers (R184) -/

theorem bytes2_of_parts {high low : Byte} {n : Nat} (h : 256 * high.toNat + low.toNat = n) : bytes2 n = [high, low] := by
  have := high.isLt
  have := low.isLt
  unfold bytes2
  congr 1
  · exact BitVec.eq_of_toNat_eq (by rw [BitVec.toNat_ofNat]; omega)
  · congr 1
    exact BitVec.eq_of_toNat_eq (by rw [BitVec.toNat_ofNat]; omega)

theorem bytes1_toNat {n : Nat} (h : n < 256) : (bytes1 n).map BitVec.toNat = [n] := by
  simp only [bytes1, List.map_cons, List.map_nil, BitVec.toNat_ofNat, List.cons.injEq, and_true]
  omega

theorem bytes2_toNat {n : Nat} (h : n < 65536) : (bytes2 n).map BitVec.toNat = [n / 256, n % 256] := by
  simp only [bytes2, List.map_cons, List.map_nil, BitVec.toNat_ofNat, List.cons.injEq, and_true]
  omega

theorem bytes3_toNat {n : Nat} (h : n < 16777216) : (bytes3 n).map BitVec.toNat = [n / 65536, n / 256 % 256, n % 256] := by
  simp only [bytes3, bytes2, List.map_cons, List.map_nil, BitVec.toNat_ofNat, List.cons.injEq, and_true]
  omega

theorem ofNat8_append (n : Nat) : BitVec.ofNat 8 (n / 256) ++ BitVec.ofNat 8 n = BitVec.ofNat 16 n := by
  refine BitVec.eq_of_toNat_eq ?_
  rw [BitVec.toNat_append, ← Nat.shiftLeft_add_eq_or_of_lt (BitVec.isLt _), Nat.shiftLeft_eq]
  simp only [BitVec.toNat_ofNat]
  omega

theorem bytesSigned_toInt {x : Int} (hlow : -32768 ≤ x) (hhigh : x < 32768) :
    ∃ high low : Byte, bytesSigned x = [high, low] ∧ (high ++ low).toInt = x := by
  refine ⟨_, _, rfl, ?_⟩
  have hcast : ((x % 65536).toNat : Int) = x % 65536 := Int.toNat_of_nonneg (Int.emod_nonneg _ (by decide))
  have hsmall : (x % 65536).toNat % 2 ^ 16 = (x % 65536).toNat := Nat.mod_eq_of_lt (by omega)
  rw [ofNat8_append, BitVec.toInt_eq_toNat_bmod, BitVec.toNat_ofNat, hsmall, hcast]
  show (x % (65536 : Nat)).bmod 65536 = x
  rw [Int.emod_bmod]
  exact Int.bmod_eq_of_le (by omega) (by omega)

/-! ### Sets (R184) -/

theorem bytesRoutes_getD (set : RouteSet) : ∀ k, k < 6 → (bytesRoutes set).getD k 0 = set.extractLsb' (8 * k) 8
  | 0, _ | 1, _ | 2, _ | 3, _ | 4, _ | 5, _ => rfl
  | _ + 6, h => by omega

theorem bytesRoutes_getLsbD (set : RouteSet) {i : Nat} (h : i < 48) :
    ((bytesRoutes set).getD (i / 8) 0).getLsbD (i % 8) = has set i := by
  rw [bytesRoutes_getD set (i / 8) (by omega), BitVec.getLsbD_extractLsb', Nat.div_add_mod]
  simp [has, Nat.mod_lt]

/-! ### Presence bits -/

theorem foldr_testBit (bs : List Bool) (i : Nat) : (bs.foldr (fun (b : Bool) n => b.toNat + 2 * n) 0).testBit i = bs.getD i false := by
  induction bs generalizing i with
  | nil => simp
  | cons b bs ih =>
    cases i with
    | zero => cases b <;> simp [Nat.testBit_zero]
    | succ i =>
      rw [List.foldr_cons, Nat.testBit_succ, List.getD_cons_succ, ← ih]
      congr 1
      cases b
      · simp
      · simp only [Bool.toNat_true]
        omega

/-- The byte whose bits are the presence flags. -/
theorem presence_eq {bs : List Bool} {p : Byte} (h : ∀ i, p.getLsbD i = true ↔ bs.getD i false = true) :
    presence bs = [p] := by
  unfold presence bytes1
  congr 1
  refine BitVec.eq_of_getLsbD_eq fun i hi => ?_
  rw [BitVec.getLsbD_ofNat, foldr_testBit, decide_eq_true hi, Bool.true_and, Bool.eq_iff_iff, h]

/-! ### Lengths and constants -/

@[simp] theorem bytes1_length (n : Nat) : (bytes1 n).length = 1 := rfl

@[simp] theorem bytes2_length (n : Nat) : (bytes2 n).length = 2 := rfl

@[simp] theorem bytes3_length (n : Nat) : (bytes3 n).length = 3 := rfl

@[simp] theorem bytesTime_length (t : Time) : (bytesTime t).length = 5 := rfl

@[simp] theorem bytesSigned_length (x : Int) : (bytesSigned x).length = 2 := rfl

/-! ### Log entries (Table 11-5) -/

theorem bytesLogEntry_length (e : LogEntry) : (bytesLogEntry e).length = 21 := by
  simp only [bytesLogEntry, List.length_append, bytes1_length, bytes2_length, bytesTime_length]

theorem optCode_eq {α : Type} (f : α → Nat) (o : Option α) : optCode f 0 o = o.elim 0 f := by
  cases o <;> rfl

theorem optCode_route (o : Option RouteNo) : optCode Fin.val 0xFF o = o.elim 0xFF Fin.val := by
  cases o <;> rfl

/-- A log entry is its head and the fields of its kind, an absent field as Table 11-5 gives it. -/
theorem bytesLogEntry_eq {n : Nat} {t : Time} {b : LogBody} {f : LogFields} (h : logFields b = f) :
    bytesLogEntry { number := n, time := t, body := b }
      = (bytes2 n ++ bytes2 t.day ++ bytes1 t.hour ++ bytes1 t.minute ++ bytes1 t.second)
        ++ (bytes1 f.kind ++ bytes1 f.route ++ bytes2 f.id ++ bytes1 f.testKind ++ bytes1 f.outcome ++ bytes1 f.cond
          ++ bytes1 f.clients ++ bytes1 f.window ++ bytes1 f.cause ++ bytes1 f.error ++ bytes1 f.reset ++ bytes1 f.client
          ++ bytes1 f.change) := by
  subst h
  simp only [bytesLogEntry, bytesTime, List.append_assoc]

/-! ### The parts of READ_RESULT (Tables 11-6 and 11-7) -/

theorem bytesEvents_eq (first : Nat) (all : List LossEvent) :
    bytesEvents first all = bytes1 all.length ++ bytes1 (min 8 (all.length - first))
      ++ ((all.drop first).take 8).flatMap (fun e => bytes2 e.index ++ bytes3 e.distance ++ bytes2 e.loss) := by
  unfold bytesEvents
  dsimp only
  rw [List.length_take, List.length_drop]
  rfl

theorem bytesEvents_length (first : Nat) (all : List LossEvent) :
    (bytesEvents first all).length = 2 + 7 * min 8 (all.length - first) := by
  have hseven : ∀ e : LossEvent, (bytes2 e.index ++ bytes3 e.distance ++ bytes2 e.loss).length = 7 := fun _ => rfl
  rw [bytesEvents_eq, List.length_append, List.length_flatMap]
  simp only [hseven, List.map_const', List.sum_replicate, List.length_take, List.length_drop, List.length_append, smul_eq_mul,
    bytes1_length]
  omega

theorem bytesBreak_eq (o : Option Break) :
    bytesBreak o = o.elim (List.replicate 4 0) (fun b => bytes1 (breakCode b.kind) ++ bytes3 b.distance) := by
  cases o <;> rfl

theorem bytesBreak_length (o : Option Break) : (bytesBreak o).length = 4 := by
  cases o <;> rfl

theorem judgedEvents_eq (o : Option Judgement) : judgedEvents o = o.elim [] Judgement.events := by
  cases o <;> rfl

/-- The analysis fields of a test part, each 0 where there are none (log entry 33). -/
def bytesFields (o : Option AnalysisFields) : List Byte :=
  o.elim (List.replicate 12 0) fun f =>
    bytes2 f.dzEff ++ bytes1 f.width ++ bytes2 f.em ++ bytes3 f.dEm ++ bytes2 f.satCount ++ bytes2 (f.firstSat.getD 0xFFFF)

theorem bytesFields_length (o : Option AnalysisFields) : (bytesFields o).length = 12 := by
  cases o <;> rfl

theorem bytesTestPart_eq (first : Nat) (r : TestRecord) {p : Byte}
    (hp : ∀ i, p.getLsbD i = true ↔
      i = 0 ∧ r.fields ≠ none
        ∨ ∃ x, r.judgement = some x ∧ (i = 1 ∨ i = 2 ∧ x.brk ≠ none ∨ i = 3 ∧ x.more = true ∨ i = 4 ∧ x.longer = true
            ∨ i = 5 ∧ x.excess ≠ none)) :
    bytesTestPart first (some r)
      = [1] ++ bytes2 r.id ++ bytes2 r.acq ++ bytes1 (kindCode r.kind) ++ bytes1 (classCode r.cls) ++ bytesTime r.time
        ++ bytes1 (outcomeCode r.outcome) ++ bytes2 r.len ++ [p] ++ bytesFields r.fields
        ++ bytes1 (r.judgement.elim 0 fun x => conditionCode x.cond) ++ bytesBreak (r.judgement.bind Judgement.brk)
        ++ bytesSigned ((r.judgement.bind Judgement.excess).getD 0) ++ bytesEvents first (r.judgement.elim [] Judgement.events) := by
  have hflags : presence [r.fields.isSome, r.judgement.isSome, (r.judgement.bind Judgement.brk).isSome,
      r.judgement.any Judgement.more, r.judgement.any Judgement.longer, (r.judgement.bind Judgement.excess).isSome] = [p] := by
    refine presence_eq fun i => ?_
    rw [hp]
    cases hj : r.judgement with
    | none =>
      match i with
      | 0 => simp [Option.isSome_iff_ne_none]
      | 1 | 2 | 3 | 4 | 5 | _ + 6 => simp
    | some x =>
      match i with
      | 0 => simp [Option.isSome_iff_ne_none]
      | 1 | 2 | 3 | 4 | 5 | _ + 6 => simp [Option.isSome_iff_ne_none]
  unfold bytesTestPart
  dsimp only
  rw [hflags, optCode_eq, judgedEvents_eq]
  congr 5
  cases r.fields <;> rfl

theorem bytesFaultPart_eq (first : Nat) (q : FaultPart) {p : Byte}
    (hp : ∀ i, p.getLsbD i = true ↔
      i = 0 ∧ q.record.adopting ≠ none ∨ i = 1 ∧ q.record.adopting.bind Adopting.id ≠ none ∨ i = 2 ∧ q.record.brk ≠ none
        ∨ i = 3 ∧ q.record.events ≠ none ∨ i = 4 ∧ (∃ l, q.record.events = some l ∧ l.more = true)
        ∨ i = 5 ∧ q.record.excess ≠ none ∨ i = 6 ∧ q.candidate ≠ none) :
    bytesFaultPart first q
      = [p] ++ bytes1 (conditionCode q.record.cond) ++ bytesTime q.record.time
        ++ bytes2 ((q.record.adopting.bind Adopting.id).getD 0)
        ++ bytes1 (q.record.adopting.elim 0 fun a => kindCode a.kind) ++ bytes2 (q.record.adopting.elim 0 Adopting.acq)
        ++ bytes2 (q.record.latest.getD 0) ++ bytes2 q.record.agreeing ++ bytesBreak q.record.brk
        ++ bytesSigned (q.record.excess.getD 0) ++ bytes1 (q.candidate.elim 0 fun c => conditionCode c.cond)
        ++ bytes1 (q.candidate.elim 0 Candidate.agree) ++ bytes1 q.confirm
        ++ bytesEvents first (q.record.events.elim [] EventList.events) := by
  have hflags : presence [q.record.adopting.isSome, (q.record.adopting.bind Adopting.id).isSome, q.record.brk.isSome,
      q.record.events.isSome, q.record.events.any EventList.more, q.record.excess.isSome, q.candidate.isSome] = [p] := by
    refine presence_eq fun i => ?_
    rw [hp]
    match i with
    | 0 | 1 | 2 | 3 | 5 | 6 => simp [Option.isSome_iff_ne_none]
    | 4 => simp [Option.any_eq_true]
    | _ + 7 => simp
  unfold bytesFaultPart
  dsimp only
  rw [hflags, optCode_eq, optCode_eq, optCode_eq, optCode_eq]
  congr 1
  cases q.record.events <;> rfl

/-! ### Frames and the data of READ_TRACE -/

theorem replyFrame_parts (r : Reply) (h : (bytesData r.data).length ≤ 248) : ∃ n high low : Byte,
    n.toNat = (bytesData r.data).length + 2
    ∧ replyFrame r = [0xA5, n, r.tag, BitVec.ofNat 8 (statusCode r.status)] ++ bytesData r.data ++ [high, low]
    ∧ high ++ low = frameCheck ([n, r.tag, BitVec.ofNat 8 (statusCode r.status)] ++ bytesData r.data) := by
  refine ⟨BitVec.ofNat 8 ((bytesData r.data).length + 2), _, _, ?_, rfl, extract_bytes_append _⟩
  exact toNat_ofNat8 (decide_eq_true (by omega))

/-- The level of a cell with its saturation mark in bit 15 (R39). -/
theorem bytes_cell {c : TraceCell} {bytesOf : TraceCell → List Byte}
    (h : ∃ high low : Byte, bytesOf c = [high, low]
      ∧ 256 * high.toNat + low.toNat = if c.sat then c.level + 32768 else c.level) :
    bytes2 (c.level + if c.sat then 32768 else 0) = bytesOf c := by
  obtain ⟨high, low, hbytes, hvalue⟩ := h
  rw [hbytes]
  refine bytes2_of_parts ?_
  rw [hvalue]
  split <;> rfl

/-! ### The log entries kind by kind -/

section
variable (n : Nat) (t : Time)

/-- The first seven bytes of a log entry: its number and its time. -/
def entryHead : List Byte := bytes2 n ++ bytes2 t.day ++ bytes1 t.hour ++ bytes1 t.minute ++ bytes1 t.second

theorem entry_reset (k : ResetKind) : bytesLogEntry { number := n, time := t, body := .reset k }
    = entryHead n t ++ [1, 0xFF, 0, 0, 0, 0, 0, 0, 0xFF, 0, 0] ++ bytes1 (resetCode k) ++ [0, 0] := by
  rw [bytesLogEntry_eq rfl]
  simp only [entryHead, logFields, bytes1, bytes2, List.cons_append, List.nil_append]
  rfl

theorem entry_testDone (r : RouteNo) (id : Nat) (k : TestKind) (out : TestOutcome) (reqs : RequesterSet) (c : Option Client) :
    bytesLogEntry { number := n, time := t, body := .testDone r id k out reqs c }
      = entryHead n t ++ [2] ++ bytes1 r ++ bytes2 id ++ bytes1 (kindCode k) ++ bytes1 (outcomeCode out) ++ [0]
        ++ bytes1 (128 + reqs.toNat) ++ [0xFF, 0, 0, 0] ++ bytes1 (c.elim 0 clientCode) ++ [0] := by
  rw [bytesLogEntry_eq rfl, ← optCode_eq]
  simp only [entryHead, logFields, bytes1, bytes2, List.cons_append, List.nil_append]
  rfl

theorem entry_faultChange (r : RouteNo) (c : Condition) (test : Option (Nat × TestKind)) (by_ : Option Client) :
    bytesLogEntry { number := n, time := t, body := .faultChange r c test by_ }
      = entryHead n t ++ [3] ++ bytes1 r ++ bytes2 (test.elim 0 Prod.fst) ++ bytes1 (test.elim 0 fun x => kindCode x.2) ++ [0]
        ++ bytes1 (conditionCode c) ++ [0, 0xFF, 0, 0, 0] ++ bytes1 (by_.elim 0 clientCode) ++ [0] := by
  rw [bytesLogEntry_eq rfl, ← optCode_eq, ← optCode_eq, ← optCode_eq]
  simp only [entryHead, logFields, bytes1, bytes2, List.cons_append, List.nil_append]
  rfl

theorem entry_windowOpen (w : WindowNo) : bytesLogEntry { number := n, time := t, body := .windowOpen w }
    = entryHead n t ++ [4, 0xFF, 0, 0, 0, 0, 0, 0] ++ bytes1 w ++ [0, 0, 0, 0, 0] := by
  rw [bytesLogEntry_eq rfl]
  simp only [entryHead, logFields, bytes1, bytes2, List.cons_append, List.nil_append]
  rfl

theorem entry_windowClose (w : WindowNo) (c : CloseCause) : bytesLogEntry { number := n, time := t, body := .windowClose w c }
    = entryHead n t ++ [5, 0xFF, 0, 0, 0, 0, 0, 0] ++ bytes1 w ++ bytes1 (causeCode c) ++ [0, 0, 0, 0] := by
  rw [bytesLogEntry_eq rfl]
  simp only [entryHead, logFields, bytes1, bytes2, List.cons_append, List.nil_append]
  rfl

theorem entry_routeChange (r : RouteNo) (c : Client) (ch : RouteChange) :
    bytesLogEntry { number := n, time := t, body := .routeChange r c ch }
      = entryHead n t ++ [6] ++ bytes1 r ++ [0, 0, 0, 0, 0, 0, 0xFF, 0, 0, 0] ++ bytes1 (clientCode c)
        ++ bytes1 (routeChangeCode ch) := by
  rw [bytesLogEntry_eq rfl]
  simp only [entryHead, logFields, bytes1, bytes2, List.cons_append, List.nil_append]
  rfl

theorem entry_holdChange (r : RouteNo) (c : Client) (h : HoldSet) :
    bytesLogEntry { number := n, time := t, body := .holdChange r c h }
      = entryHead n t ++ [7] ++ bytes1 r ++ [0, 0, 0, 0, 0] ++ bytes1 (128 + h.toNat) ++ [0xFF, 0, 0, 0]
        ++ bytes1 (clientCode c) ++ [0] := by
  rw [bytesLogEntry_eq rfl]
  simp only [entryHead, logFields, bytes1, bytes2, List.cons_append, List.nil_append]
  rfl

theorem entry_clock (c : Client) (ch : ClockChange) : bytesLogEntry { number := n, time := t, body := .clock c ch }
    = entryHead n t ++ [8, 0xFF, 0, 0, 0, 0, 0, 0, 0xFF, 0, 0, 0] ++ bytes1 (clientCode c) ++ bytes1 (clockChangeCode ch) := by
  rw [bytesLogEntry_eq rfl]
  simp only [entryHead, logFields, bytes1, bytes2, List.cons_append, List.nil_append]
  rfl

theorem entry_equipment (k : EquipKind) (r : Option RouteNo) :
    bytesLogEntry { number := n, time := t, body := .equipment k r }
      = entryHead n t ++ [9] ++ bytes1 (r.elim 0xFF Fin.val) ++ [0, 0, 0, 0, 0, 0, 0xFF, 0] ++ bytes1 (equipCode k)
        ++ [0, 0, 0] := by
  rw [bytesLogEntry_eq rfl, ← optCode_route]
  simp only [entryHead, logFields, bytes1, bytes2, List.cons_append, List.nil_append]
  rfl

end

/-- Settles O20: the check bit by bit, the numbers by their remainders, the layouts part by part. -/
theorem repliesAreFramed : Obligations.RepliesAreFramed := by
  refine ⟨⟨rfl, fun bs b reg h0 hstep => ?_⟩, replyFrame_parts, fun n => ⟨bytes1_toNat, bytes2_toNat, bytes3_toNat⟩,
    fun _ => bytesSigned_toInt, fun set => ⟨rfl, fun i => bytesRoutes_getLsbD set⟩, fun n set i j => ?_, rfl, rfl, ?_,
    fun n t head entry hhead hentry => ?_, fun first all events hevents => ⟨rfl, fun r j p hj hall hp => ?_, fun q f p hf hall hp => ?_⟩,
    rfl, fun _ _ _ => rfl, fun _ _ _ _ _ => rfl, fun l dz em count firstSat offset cells bytesOf hbytes _ => ?_⟩
  · rw [frameCheck_concat, crcByte_eq h0 hstep]
  · refine ⟨rfl, fun hi => ?_, ?_⟩
    · rw [has_add set i j hi, decide_eq_decide.mpr eq_comm]
    · rw [has_del, ← decide_not, decide_eq_decide.mpr (not_congr eq_comm)]
  · exact ⟨rfl, rfl, rfl, rfl, rfl, rfl, rfl, rfl, rfl, rfl, rfl, rfl⟩
  · subst hhead
    simp only [hentry]
    exact ⟨fun _ => bytesLogEntry_length _, entry_reset n t, entry_testDone n t, entry_faultChange n t, entry_windowOpen n t,
      entry_windowClose n t, entry_routeChange n t, entry_holdChange n t, entry_clock n t, entry_equipment n t⟩
  · subst hj
    have hlen : events.length = 2 + 7 * min 8 (all.length - first) := by rw [hevents, ← bytesEvents_eq, bytesEvents_length]
    have heq := bytesTestPart_eq first r hp
    rw [← hall, bytesEvents_eq, ← hevents] at heq
    refine ⟨?_, ?_⟩
    · rw [heq]
      simp only [bytesTime, bytesBreak_eq, bytesFields, List.append_assoc]
    · rw [heq]
      simp only [List.length_append, bytes1_length, bytes2_length, bytesTime_length, bytesSigned_length, bytesFields_length,
        bytesBreak_length, hlen, List.length_cons, List.length_nil]
      omega
  · subst hf
    have hlen : events.length = 2 + 7 * min 8 (all.length - first) := by rw [hevents, ← bytesEvents_eq, bytesEvents_length]
    have heq := bytesFaultPart_eq first q hp
    rw [← hall, bytesEvents_eq, ← hevents] at heq
    refine ⟨?_, ?_⟩
    · rw [heq]
      simp only [bytesTime, bytesBreak_eq, List.append_assoc]
    · rw [heq]
      simp only [List.length_append, bytes1_length, bytes2_length, bytesTime_length, bytesSigned_length, bytesBreak_length, hlen,
        List.length_cons, List.length_nil]
      omega
  · have hcells : (cells.flatMap fun c => bytes2 (c.level + if c.sat then 32768 else 0)) = cells.flatMap bytesOf :=
      List.flatMap_congr fun c hc => bytes_cell (hbytes c hc)
    rw [← hcells]
    cases firstSat <;> rfl

end Sys2Proof.Machine
end

section
/-!
TEST: the checks that refuse it, the entry it makes or joins, the place of that entry and the reply (R102, R104 to R107).
-/
namespace Sys2Proof.Machine

/-! ### Places in the queue (R102) -/

theorem positionOf_split {s : State} {pre post : List Entry} {e : Entry} {id : Nat}
    (hsplit : s.queue.entries = pre ++ e :: post) (hid : e.id = id) (hbefore : ∀ x ∈ pre, x.id ≠ id) :
    positionOf id s = some (pre.length + 1) := by
  have hnone : pre.findIdx? (fun x => x.id == id) = none :=
    List.findIdx?_eq_none_iff.mpr fun x hx => by simpa using hbefore x hx
  unfold positionOf
  rw [hsplit, List.findIdx?_append, hnone, List.findIdx?_cons, hid]
  simp

theorem positionOf_gone {s : State} {id : Nat} (h : ∀ e ∈ s.queue.entries, e.id ≠ id) : positionOf id s = none := by
  unfold positionOf
  rw [List.findIdx?_eq_none_iff.mpr fun x hx => by simpa using h x hx]
  rfl

theorem placeEntry_between {e : Entry} {pre post : List Entry}
    (hurgent : e.cls = .urgent → (∀ x ∈ pre, x.cls = .urgent) ∧ ∀ x ∈ post, x.cls = .routine)
    (hroutine : e.cls = .routine → post = []) : placeEntry e (pre ++ post) = pre ++ e :: post := by
  unfold placeEntry
  split
  · rename_i hcls
    obtain ⟨hpre, hpost⟩ := hurgent hcls
    have hall : ∀ x ∈ pre, (x.cls == TestClass.urgent) = true := fun x hx => beq_iff_eq.mpr (hpre x hx)
    have hstop : ∀ l : List Entry, (∀ x ∈ l, x.cls = .routine) →
        l.takeWhile (fun x => x.cls == .urgent) = [] ∧ l.dropWhile (fun x => x.cls == .urgent) = l := by
      intro l hl
      cases l with
      | nil => exact ⟨rfl, rfl⟩
      | cons x l =>
        have hx : ¬(x.cls == TestClass.urgent) = true := by rw [hl x (by simp)]; decide
        exact ⟨List.takeWhile_cons_of_neg hx, List.dropWhile_cons_of_neg hx⟩
    rw [List.takeWhile_append_of_pos hall, List.dropWhile_append_of_pos hall, (hstop post hpost).1, (hstop post hpost).2,
      List.append_nil]
  · rename_i hcls
    rw [hroutine hcls, List.append_nil]

/-! ### The reply to a TEST -/

/-- The id search of a lawful queue finds the first free id from its counter on (R104). -/
theorem QueueLaw.freshId_firstFree {s : State} (h : QueueLaw s) :
    FirstFree s.queue.entries s.queue.counter (freshId s.queue.entries 33 s.queue.counter) := by
  obtain ⟨hlen, -, -, -, -, hlow, hhigh⟩ := h
  exact Machine.freshId_firstFree hlen hlow hhigh

/-- The URGENT entries stand before the ROUTINE ones (R102). -/
theorem QueueLaw.urgentFirst {s : State} (h : QueueLaw s) :
    s.queue.entries.Pairwise fun a b => a.cls = .routine → b.cls = .routine := by
  obtain ⟨-, -, -, hpairs, -⟩ := h
  exact hpairs

theorem permitted_test (c : Client) : permitted 0x01 c = true := by cases c <;> rfl

theorem routeOf_val (r : RouteNo) : routeOf r.val = some r := by simp [routeOf]

/-- The answer to a TEST of a route, a kind and a class that the tables know. -/
def answeredTest (r : RouteNo) (s : State) : TestAnswer × State → State × Status × ReplyData
  | (.noRoute, t) => (t, .noRoute, .none)
  | (.held, t) => (t, .held, .testHeld s.routes[r].holds (isBarred s r))
  | (.barred, t) => (t, .barred, .testBarred s.device.barred)
  | (.full, t) => (t, .queueFull, .none)
  | (.placed id word, t) => testReply id word t

theorem ownTest_eq {c : Client} {r : RouteNo} {kind cls : Nat} {k : TestKind} {cl : TestClass} (s : State)
    (hk : kindOf kind = some k) (hcl : classOf cls = some cl) :
    ownTest c r kind cls s = answeredTest r s (askTest (bitOf c) r k cl s) := by
  unfold ownTest
  rw [routeOf_val, hk, hcl]
  dsimp only
  generalize askTest (bitOf c) r k cl s = p
  rcases p with ⟨_ | _ | _ | _ | _, t⟩ <;> rfl

theorem exec_test {c : Client} {tag : Byte} {r : RouteNo} {kind cls : Nat} {k : TestKind} {cl : TestClass} {s t : State}
    {st : Status} {d : ReplyData} (hready : Ready c s) (hk : kindOf kind = some k) (hcl : classOf cls = some cl)
    (h : answeredTest r s (askTest (bitOf c) r k cl s) = (t, st, d)) :
    exec (.test c tag r kind cls) s = .next (replied c tag 0x01 st d t) :=
  request_answered (own := ownTest c r kind cls) hready (permitted_test c) ((ownTest_eq s hk hcl).trans h)

/-- A TEST whose entry has been placed shows where it then stands. -/
theorem exec_test_placed {c : Client} {tag : Byte} {r : RouteNo} {kind cls id : Nat} {k : TestKind} {cl : TestClass}
    {word : TestWord} {s t : State} (hready : Ready c s) (hk : kindOf kind = some k) (hcl : classOf cls = some cl)
    (h : askTest (bitOf c) r k cl s = (.placed id word, t)) :
    TestAnswered c tag id word t (exec (.test c tag r kind cls) s) := by
  have hanswer : answeredTest r s (askTest (bitOf c) r k cl s) = testReply id word t := by
    rw [h]
    rfl
  refine ⟨fun pre e post hsplit hid hbefore => exec_test hready hk hcl (hanswer.trans ?_),
    fun hgone => exec_test hready hk hcl (hanswer.trans ?_)⟩
  · rw [testReply, positionOf_split hsplit hid hbefore]
  · rw [testReply, positionOf_gone hgone]

/-! ### The checks of R105 -/

theorem routeStatus_eq_unused_iff {e : RouteEntry} : routeStatus e = .unused ↔ e.body = none := by
  unfold routeStatus
  cases e.body with
  | none => simp
  | some b => cases h : b.baseline <;> simp [h]

theorem askTest_noRoute {who : Nat} {r : RouteNo} {k : TestKind} {cls : TestClass} {s : State}
    (h : s.routes[r].body = none) : askTest who r k cls s = (.noRoute, s) := by
  unfold askTest
  rw [if_pos (routeStatus_eq_unused_iff.mpr h)]

theorem askTest_held {who : Nat} {r : RouteNo} {k : TestKind} {cls : TestClass} {s : State}
    (h : s.routes[r].body ≠ none) (hheld : s.routes[r].holds ≠ 0) : askTest who r k cls s = (.held, s) := by
  have hh : isHeld s r = true := bne_iff_ne.mpr hheld
  unfold askTest
  rw [if_neg (mt routeStatus_eq_unused_iff.mp h), if_pos hh]

theorem isHeld_eq_false {s : State} {r : RouteNo} (h : s.routes[r].holds = 0) : ¬isHeld s r = true :=
  fun hheld => bne_iff_ne.mp hheld h

theorem askTest_barred {who : Nat} {r : RouteNo} {k : TestKind} {cls : TestClass} {s : State}
    (h : s.routes[r].body ≠ none) (hheld : s.routes[r].holds = 0) (hbar : inBarred s.device.barred r = true) :
    askTest who r k cls s = (.barred, s) := by
  have hb : isBarred s r = true := hbar
  unfold askTest
  rw [if_neg (mt routeStatus_eq_unused_iff.mp h), if_neg (isHeld_eq_false hheld), if_pos hb]

theorem open_parts {s : State} {r : RouteNo} (h : isClosed s r = false) : ¬isHeld s r = true ∧ ¬isBarred s r = true := by
  simpa [isClosed] using h

theorem find_waitsFor_none {es : List Entry} {r : RouteNo} {k : TestKind}
    (h : ∀ e ∈ es, isWaiting e = true → ¬(e.route = r ∧ e.kind = k)) : es.find? (waitsFor r k) = none :=
  List.find?_eq_none.mpr fun e he hw => by
    obtain ⟨hwait, hlabel⟩ := waitsFor_iff.mp hw
    exact h e he hwait hlabel

/-- TEST of an open route with no WAITING entry to join: refused with 32 entries standing, else a new entry (R105). -/
theorem askTest_alone {who : Nat} {r : RouteNo} {k : TestKind} {cls : TestClass} {s : State}
    (h : s.routes[r].body ≠ none) (hopen : isClosed s r = false)
    (hnone : ∀ e ∈ s.queue.entries, isWaiting e = true → ¬(e.route = r ∧ e.kind = k)) :
    askTest who r k cls s = if 32 ≤ s.queue.entries.length then (.full, s)
      else (.placed (freshId s.queue.entries 33 s.queue.counter) .new,
        newEntry (freshId s.queue.entries 33 s.queue.counter) who r k cls s) := by
  have hfind := find_waitsFor_none hnone
  unfold waitsFor at hfind
  unfold askTest
  rw [if_neg (mt routeStatus_eq_unused_iff.mp h), if_neg (open_parts hopen).1, if_neg (open_parts hopen).2, hfind]

theorem askTest_full {who : Nat} {r : RouteNo} {k : TestKind} {cls : TestClass} {s : State}
    (h : s.routes[r].body ≠ none) (hopen : isClosed s r = false)
    (hnone : ∀ e ∈ s.queue.entries, isWaiting e = true → ¬(e.route = r ∧ e.kind = k))
    (hlen : 32 ≤ s.queue.entries.length) : askTest who r k cls s = (.full, s) := by
  rw [askTest_alone h hopen hnone, if_pos hlen]

theorem askTest_new {who : Nat} {r : RouteNo} {k : TestKind} {cls : TestClass} {s : State}
    (h : s.routes[r].body ≠ none) (hopen : isClosed s r = false)
    (hnone : ∀ e ∈ s.queue.entries, isWaiting e = true → ¬(e.route = r ∧ e.kind = k))
    (hlen : s.queue.entries.length < 32) :
    askTest who r k cls s = (.placed (freshId s.queue.entries 33 s.queue.counter) .new,
      newEntry (freshId s.queue.entries 33 s.queue.counter) who r k cls s) := by
  rw [askTest_alone h hopen hnone, if_neg (Nat.not_le.mpr hlen)]

/-- TEST of an open route joins the one WAITING entry of its route and kind (R107). -/
theorem askTest_join {who : Nat} {r : RouteNo} {k : TestKind} {cls : TestClass} {s : State} (hq : QueueLaw s)
    (h : s.routes[r].body ≠ none) (hopen : isClosed s r = false) {e : Entry} (he : e ∈ s.queue.entries)
    (hwait : isWaiting e = true) (hr : e.route = r) (hkind : e.kind = k) :
    askTest who r k cls s = (.placed e.id .joined, joinEntry who cls e s) := by
  obtain ⟨hok, hno, -⟩ := queueLaw_iff.mp hq
  have hfind : s.queue.entries.find? (waitsFor r k) = some e := by
    cases hf : s.queue.entries.find? (waitsFor r k) with
    | none =>
      have := List.find?_eq_none.mp hf e he
      exact absurd (waitsFor_iff.mpr ⟨hwait, hr, hkind⟩) this
    | some x =>
      obtain ⟨hw, hxr, hxk⟩ := waitsFor_iff.mp (List.find?_some hf)
      have hx := List.mem_of_find?_eq_some hf
      rw [hok.eq_of_id hx he (hno x hx e he ⟨hw, hwait, hxr.trans hr.symm, hxk.trans hkind.symm⟩)]
  unfold waitsFor at hfind
  unfold askTest
  rw [if_neg (mt routeStatus_eq_unused_iff.mp h), if_neg (open_parts hopen).1, if_neg (open_parts hopen).2, hfind]

/-! ### The refusals (R105) -/

theorem kindOf_classOf_none {n : Nat} (h1 : n ≠ 1) (h2 : n ≠ 2) : kindOf n = none ∧ classOf n = none := by
  match n with
  | 0 => exact ⟨rfl, rfl⟩
  | 1 => exact absurd rfl h1
  | 2 => exact absurd rfl h2
  | n + 3 => exact ⟨rfl, rfl⟩

theorem ownTest_badValue (c : Client) {route kind cls : Nat} (s : State)
    (h : 48 ≤ route ∨ (kind ≠ 1 ∧ kind ≠ 2) ∨ (cls ≠ 1 ∧ cls ≠ 2)) :
    ownTest c route kind cls s = (s, .badValue, .none) := by
  unfold ownTest
  rcases h with h | ⟨h1, h2⟩ | ⟨h1, h2⟩
  · have hr : routeOf route = none := dif_neg (by omega)
    rw [hr]
  · rw [(kindOf_classOf_none h1 h2).1]
    split <;> simp_all
  · rw [(kindOf_classOf_none h1 h2).2]
    split <;> simp_all

/-- Settles O24: the checks of R105, each under the negation of those before it. -/
theorem testRefusals : Obligations.TestRefusals := by
  refine ⟨⟨rfl, rfl, rfl, rfl, fun n => kindOf_classOf_none⟩, fun c tag s hready => ⟨?_, ?_⟩⟩
  · intro route kind cls h
    exact request_answered (own := ownTest c route kind cls) hready (permitted_test c) (ownTest_badValue c s h)
  · intro r kind cls k cl hk hcl
    have refused {a : TestAnswer} {st : Status} {d : ReplyData} (h : askTest (bitOf c) r k cl s = (a, s))
        (ha : answeredTest r s (a, s) = (s, st, d)) :
        exec (.test c tag r kind cls) s = .next (replied c tag 0x01 st d s) :=
      exec_test hready hk hcl ((congrArg (answeredTest r s) h).trans ha)
    refine ⟨fun hb => refused (askTest_noRoute hb) rfl, fun hb => ⟨fun hh => refused (askTest_held hb hh) rfl, fun hh =>
      ⟨fun hbar => refused (askTest_barred hb hh hbar) rfl, fun hbar hlen hnone => ?_⟩⟩⟩
    have hopen : isClosed s r = false := by
      unfold isClosed
      rw [Bool.eq_false_iff.mpr (isHeld_eq_false hh), isBarred, hbar, Bool.or_false]
    exact refused (askTest_full hb hopen hnone hlen) rfl

/-! ### The new and the joined entry (R106, R107) -/

theorem nextId_eq {id : Nat} (h : id ≤ 65535) : nextId id = if id = 65535 then 1 else id + 1 := by
  unfold nextId
  split <;> split <;> omega

/-- The state that a new entry makes, where the places of the others are told (R102, R106). -/
theorem placedState_eq {id who : Nat} {r : RouteNo} {k : TestKind} {cls : TestClass} {s : State} {pre post : List Entry}
    (hid : id ≤ 65535) (hsplit : s.queue.entries = pre ++ post)
    (hurgent : cls = .urgent → (∀ x ∈ pre, x.cls = .urgent) ∧ ∀ x ∈ post, x.cls = .routine)
    (hroutine : cls = .routine → post = []) :
    placedState id who r k cls s = { s with queue := {
      entries := pre ++ freshEntry id who r k cls :: post
      counter := if id = 65535 then 1 else id + 1
      marks := s.queue.marks } } := by
  unfold placedState
  rw [hsplit, placeEntry_between (e := freshEntry id who r k cls) hurgent hroutine, nextId_eq hid]

/-- The port after a new entry: preemption only for an URGENT one (R106, R111). -/
theorem newEntry_eq (id who : Nat) (r : RouteNo) (k : TestKind) (cls : TestClass) (s : State) :
    newEntry id who r k cls s
      = if cls = .urgent then arbitrate (placedState id who r k cls s) else handOut (placedState id who r k cls s) := rfl

/-- Giving the port changes nothing while the engine takes and gives up nothing. -/
theorem port_of_fixed {cls : TestClass} {u : State} (h : EngineFixed u ∨ cls = .routine ∧ u.engine.state ≠ .idle) :
    (if cls = .urgent then arbitrate u else handOut u) = u := by
  rcases h with h | ⟨hcls, hidle⟩
  · rw [arbitrate_of_fixed h, handOut_of_not_idle h.1, ite_self]
  · rw [if_neg (by rw [hcls]; decide), handOut_of_not_idle hidle]

theorem joinedState_eq {who : Nat} {e : Entry} {s : State} {pre post : List Entry} (hq : QueueLaw s)
    (hsplit : s.queue.entries = pre ++ e :: post) :
    joinedState who e s = { s with queue := { s.queue with
      entries := pre ++ { e with reqs := add e.reqs who } :: post } } := by
  have hids := hq.2.1
  unfold joinedState
  rw [hsplit] at hids ⊢
  rw [map_at hids fun _ => { e with reqs := add e.reqs who }]
  rfl

theorem upgradedState_eq {who : Nat} {e : Entry} {s : State} {ups rest : List Entry}
    (hsplit : s.queue.entries.filter (fun x => x.id != e.id) = ups ++ rest)
    (hups : ∀ x ∈ ups, x.cls = .urgent) (hrest : ∀ x ∈ rest, x.cls = .routine) :
    upgradedState who e s = { s with queue := { s.queue with
      entries := ups ++ upgradedEntry who e :: rest } } := by
  unfold upgradedState
  rw [hsplit, placeEntry_between (e := upgradedEntry who e) (fun _ => ⟨hups, hrest⟩) (fun h => by cases h)]
  rfl

theorem joinEntry_upgrades {who : Nat} {e : Entry} (h : e.cls = .routine) (s : State) :
    joinEntry who .urgent e s = arbitrate (upgradedState who e s) := by
  rcases joinEntry_cases who .urgent e s with ⟨-, k⟩ | ⟨hne, -⟩
  · exact k
  · exact absurd ⟨rfl, h⟩ hne

theorem joinEntry_stays {who : Nat} {cls : TestClass} {e : Entry} (h : cls = .routine ∨ e.cls = .urgent) (s : State) :
    joinEntry who cls e s = joinedState who e s := by
  rcases joinEntry_cases who cls e s with ⟨⟨hc, he⟩, -⟩ | ⟨-, k⟩
  · rcases h with h | h
    · rw [hc] at h; cases h
    · rw [he] at h; cases h
  · exact k

/-- Settles O25: a new entry stands where R102 puts it, a joined one in its place or last of the URGENT ones, and the port is
given after it. -/
theorem testWaits : Obligations.TestWaits := by
  intro c tag r kind cls k cl s hready hq hk hcl hbody hopen
  refine ⟨fun hnone hlen pre post hsplit hurgent hroutine => ?_, fun pre e post hsplit hwait hr hkind => ?_⟩
  · have hfresh := hq.freshId_firstFree
    have hask := askTest_new (who := bitOf c) (cls := cl) hbody hopen hnone hlen
    generalize freshId s.queue.entries 33 s.queue.counter = id at hfresh hask
    have hanswer := exec_test_placed (tag := tag) hready hk hcl hask
    obtain ⟨u, hu⟩ : ∃ u, u = placedState id (bitOf c) r k cl s := ⟨_, rfl⟩
    have hengine : u.engine = s.engine := by rw [hu]; rfl
    have hplaced := hu.trans (placedState_eq hfresh.bounds.2 hsplit hurgent hroutine)
    rw [newEntry_eq, ← hu] at hanswer
    refine ⟨id, u, hfresh, hfresh.bounds.1, hfresh.bounds.2, hplaced, fun hfixed => ?_, hanswer⟩
    rw [port_of_fixed (by unfold EngineFixed; rwa [hengine])] at hanswer
    exact hanswer.1 pre _ post (by rw [hplaced]) rfl fun x hx => hfresh.not_mem x (by rw [hsplit]; simp [hx])
  · have hmem : e ∈ s.queue.entries := by rw [hsplit]; simp
    have hanswer := exec_test_placed (tag := tag) hready hk hcl
      (askTest_join (who := bitOf c) (cls := cl) hq hbody hopen hmem hwait hr hkind)
    have hids := hq.2.1
    rw [hsplit] at hids
    obtain ⟨hpre, hpost⟩ := ne_of_split hids
    refine ⟨fun hstays => ?_, fun hcls hroutine ups rest hrest hups hrestCls => ?_⟩
    · rw [joinEntry_stays hstays, joinedState_eq hq hsplit] at hanswer
      exact hanswer.1 pre _ post rfl rfl hpre
    · have hothers : s.queue.entries.filter (fun x => x.id != e.id) = ups ++ rest := by
        rw [hsplit, filter_at hids, hrest]
      have hne : ∀ x ∈ ups, x.id ≠ e.id := fun x hx => by
        have hx' : x ∈ pre ++ post := by rw [hrest]; simp [hx]
        exact (List.mem_append.mp hx').elim (hpre x) (hpost x)
      subst hcls
      rw [joinEntry_upgrades hroutine, upgradedState_eq hothers hups hrestCls] at hanswer
      refine ⟨_, rfl, fun hfixed => ?_, hanswer⟩
      rw [arbitrate_of_fixed (s := { s with queue := { s.queue with
        entries := ups ++ upgradedEntry (bitOf c) e :: rest } }) hfixed] at hanswer
      exact hanswer.1 ups _ rest rfl rfl hne

end Sys2Proof.Machine
end

section
/-!
TEST taken by the engine: at once, with the pool short, and after a preemption (R7, R106, R110, R112 to R114).
-/
namespace Sys2Proof.Machine

/-! ### The hand-out of one entry (R110) -/

theorem handOutLoop_of_none {s : State} (n : Nat) (h : s.queue.entries.find? (isEligible s) = none) : handOutLoop n s = s := by
  cases n with
  | zero => rfl
  | succ n => simp [handOutLoop, h]

theorem handOutLoop_of_not_idle {s : State} (n : Nat) (h : s.engine.state ≠ .idle) : handOutLoop n s = s := by
  cases n with
  | zero => rfl
  | succ n => simp [handOutLoop, h]

/-- The hand-out is the take of the first eligible entry, and what the hand-out loop then does. -/
theorem handOut_first {pre post : List Entry} {e : Entry} {s : State} (hidle : s.engine.state = .idle)
    (h : FirstEligible pre e post s) : ∃ n, handOut s = handOutLoop n (takeEntry e s) := by
  refine ⟨(pre ++ post).length, ?_⟩
  have hlen : s.queue.entries.length = (pre ++ post).length + 1 := by
    rw [h.1]
    simp [Nat.add_assoc]
  rw [handOut, hlen, handOutLoop, if_pos hidle, h.find]

theorem handOut_takes {pre post : List Entry} {e : Entry} {b : RouteBody} {s : State} (hidle : s.engine.state = .idle)
    (hids : (s.queue.entries.map Entry.id).Nodup) (h : FirstEligible pre e post s)
    (hbody : s.routes[e.route].body = some b) (hblocks : HasBlocks e b s) : ∃ t, Taken pre e post b s t ∧ handOut s = t := by
  have htaken := takeEntry_taken h.1 hids hbody hblocks
  obtain ⟨n, hn⟩ := handOut_first hidle h
  exact ⟨takeEntry e s, htaken, hn.trans (handOutLoop_of_not_idle n htaken.not_idle)⟩

theorem handOut_short {pre post : List Entry} {e : Entry} {b : RouteBody} {s : State} (hidle : s.engine.state = .idle)
    (hids : (s.queue.entries.map Entry.id).Nodup) (h : FirstEligible pre e post s)
    (hbody : s.routes[e.route].body = some b) (hblocks : ¬HasBlocks e b s)
    (hnone : ∀ t, FinishedShort pre e post b s t → NoneEligible t) :
    ∃ t, FinishedShort pre e post b s t ∧ handOut s = t := by
  have hshort := takeEntry_short h.1 hids hbody hblocks
  obtain ⟨n, hn⟩ := handOut_first hidle h
  refine ⟨takeEntry e s, hshort, hn.trans (handOutLoop_of_none n (List.find?_eq_none.mpr fun x hx => ?_))⟩
  rw [hnone _ hshort x hx]
  decide

/-- The place of the entry that has been taken, in the reply to the TEST that asked for it. -/
theorem TestAnswered.taken {c : Client} {tag : Byte} {id : Nat} {word : TestWord} {t : State}
    {o : Host.Outcome State Fault Refusal} (h : TestAnswered c tag id word t o) {pre post : List Entry} {e : Entry}
    {b : RouteBody} {s : State} (htaken : Taken pre e post b s t) (hid : e.id = id) (hbefore : ∀ x ∈ pre, x.id ≠ id) :
    o = .next (replied c tag 0x01 .ok (.test id word (pre.length + 1)) t) :=
  h.1 pre _ post htaken.recorded.2.1 hid hbefore

/-! ### A TEST that the idle engine considers alone -/

theorem placeEntry_split (e : Entry) (es : List Entry) :
    ∃ pre post, es = pre ++ post ∧ placeEntry e es = pre ++ e :: post := by
  unfold placeEntry
  split
  · exact ⟨_, _, List.takeWhile_append_dropWhile.symm, rfl⟩
  · exact ⟨es, [], (List.append_nil es).symm, rfl⟩

/-- The new entry of a TEST is the first eligible one where no other is eligible. -/
theorem placed_firstEligible {id who : Nat} {r : RouteNo} {k : TestKind} {cls : TestClass} {s : State} {pre post : List Entry}
    (hmay : mayRun s r cls = true) (hnone : ∀ e ∈ s.queue.entries, isEligible s e = false)
    (hsplit : s.queue.entries = pre ++ post)
    (hplace : placeEntry (freshEntry id who r k cls) s.queue.entries = pre ++ freshEntry id who r k cls :: post) :
    FirstEligible pre (freshEntry id who r k cls) post (placedState id who r k cls s) :=
  ⟨hplace, hmay, fun x hx => hnone x (by rw [hsplit]; simp [hx])⟩

/-- While the engine is IDLE a new entry is followed by the hand-out alone (R106, R114). -/
theorem newEntry_of_idle {id who : Nat} {r : RouteNo} {k : TestKind} {cls : TestClass} {s : State}
    (h : s.engine.state = .idle) : newEntry id who r k cls s = handOut (placedState id who r k cls s) := by
  have hpre : preempt (placedState id who r k cls s) = placedState id who r k cls s :=
    preempt_of_fixed (canStop_of_idle (by exact h)).1
  rw [newEntry_eq, arbitrate, hpre, ite_self]

/-- The ids of the entries with a new one among them. -/
theorem placed_ids {id who : Nat} {r : RouteNo} {k : TestKind} {cls : TestClass} {s : State} (hq : QueueLaw s)
    (hid : ∀ e ∈ s.queue.entries, e.id ≠ id) : ((placedState id who r k cls s).queue.entries.map Entry.id).Nodup := by
  show ((placeEntry (freshEntry id who r k cls) s.queue.entries).map Entry.id).Nodup
  rw [((placeEntry_perm (freshEntry id who r k cls) s.queue.entries).map _).nodup_iff, List.map_cons, List.nodup_cons]
  refine ⟨fun hm => ?_, hq.2.1⟩
  obtain ⟨x, hx, hxid⟩ := List.mem_map.mp hm
  exact hid x hx hxid

/-- Settles O28: the new entry is the first eligible one, and the hand-out takes it. -/
theorem testTaken : Obligations.TestTaken := by
  intro c tag r kind cls k cl b s hready hq hk hcl hbody hmay hidle hothers hlen pre post hsplit hurgent hroutine store
    hcheck hcapture
  have hsome : s.routes[r].body ≠ none := by rw [hbody]; exact Option.some_ne_none b
  have hfresh := hq.freshId_firstFree
  have hask := askTest_new (who := bitOf c) (cls := cl) hsome (mayRun_iff.mp hmay).1 (fun e he _ => (hothers e he).2.2) hlen
  generalize freshId s.queue.entries 33 s.queue.counter = id at hfresh hask
  have hanswer := exec_test_placed (tag := tag) hready hk hcl hask
  have hfirst := placed_firstEligible (id := id) (who := bitOf c) (k := k) hmay (fun e he => (hothers e he).2.1) hsplit
    (by rw [hsplit]; exact placeEntry_between hurgent hroutine)
  have hblocks : HasBlocks (freshEntry id (bitOf c) r k cl) b (placedState id (bitOf c) r k cl s) :=
    fun hkind => (hcapture hkind).1
  obtain ⟨t, htaken, hhand⟩ := handOut_takes (by exact hidle) (placed_ids hq hfresh.not_mem) hfirst (by exact hbody) hblocks
  rw [newEntry_of_idle hidle, hhand] at hanswer
  refine ⟨id, hfresh, fun acq queue running hacq hqueue hrunning => ?_⟩
  rw [hanswer.taken htaken rfl fun x hx => hfresh.not_mem x (by rw [hsplit]; simp [hx])]
  have hstore : storeTaken (freshEntry id (bitOf c) r k cl) b (placedState id (bitOf c) r k cl s) = store := by
    cases k with
    | check => exact (storeTaken_check rfl b _).trans (hcheck rfl).symm
    | capture => exact (storeTaken_capture rfl b _).trans (hcapture rfl).2.symm
  have hcounter : nextId id = if id = 65535 then 1 else id + 1 := nextId_eq hfresh.bounds.2
  obtain ⟨haway, hthere⟩ := htaken acq queue { s.engine with acq := acq, shotCount := 0, running := some running } hacq
    (by rw [hqueue, hacq, ← hcounter]; rfl) (by rw [hrunning]; rfl)
  refine ⟨fun hsw => ?_, fun hsw => ?_⟩
  · rw [haway hsw, hstore]
    rfl
  · rw [hthere hsw, hstore]
    rfl

/-! ### A capture that finds the pool short (R7, R57, R119) -/

theorem filter_of_absent {id : Nat} {wait : List Nat} (h : id ∉ wait) : wait.filter (· != id) = wait :=
  List.filter_eq_self.mpr fun _ hi => bne_iff_ne.mpr fun hid => h (hid ▸ hi)

theorem keptMarks_of_absent {id : Nat} {ms : List Mark} (hwait : ∀ m ∈ ms, m.wait ≠ []) (hid : ∀ m ∈ ms, id ∉ m.wait) :
    keptMarks id ms = ms := by
  have hmap : (ms.map fun m => { m with wait := m.wait.filter (· != id) }) = ms := by
    refine (List.map_congr_left fun m hm => ?_).trans (List.map_id ms)
    rw [filter_of_absent (hid m hm)]
    rfl
  rw [keptMarks, hmap]
  exact List.filter_eq_self.mpr fun m hm => by simpa using hwait m hm

theorem completedMarks_of_absent {id : Nat} {ms : List Mark} (hwait : ∀ m ∈ ms, m.wait ≠ []) (hid : ∀ m ∈ ms, id ∉ m.wait) :
    completedMarks id ms = [] := by
  rw [completedMarks, List.filter_eq_nil_iff.mpr, List.map_nil]
  intro m hm
  rw [filter_of_absent (hid m hm)]
  simpa using hwait m hm

theorem perClient_ext {α : Type} {p q : PerClient α} (h : ∀ c, perGet p c = perGet q c) : p = q := by
  cases p
  cases q
  have hA := h .scA
  have hB := h .scB
  have hL := h .ls
  have hC := h .cr
  simp only [perGet] at hA hB hL hC
  subst hA hB hL hC
  rfl

theorem has_single (c d : Client) : has (add (0 : RequesterSet) (bitOf c)) (bitOf d) = decide (d = c) := by
  cases c <;> cases d <;> decide

/-- A mark waits for the ids of entries that stand in the queue. -/
theorem MarkLaw.absent {s : State} (h : MarkLaw s) {id : Nat} (hid : ∀ e ∈ s.queue.entries, e.id ≠ id) (c : Client) :
    (∀ m ∈ perGet s.queue.marks c, m.wait ≠ []) ∧ ∀ m ∈ perGet s.queue.marks c, id ∉ m.wait := by
  refine ⟨fun m hm => ((h c).2 m hm).2.1, fun m hm hi => ?_⟩
  obtain ⟨-, -, -, hwaits⟩ := (h c).2 m hm
  obtain ⟨e, he, heid, -⟩ := hwaits id hi
  exact hid e he heid

/-- Settles O29: the take of the new entry finds the pool short, and the hand-out after it finds no other entry. -/
theorem captureFindsTheStoreFull : Obligations.CaptureFindsTheStoreFull := by
  intro c tag r cls cl b s hready hq hmarks hcl hbody hmay hidle hothers hlen hpool
  have hsome : s.routes[r].body ≠ none := by rw [hbody]; exact Option.some_ne_none b
  have hfresh := hq.freshId_firstFree
  have hask := askTest_new (who := bitOf c) (cls := cl) hsome (mayRun_iff.mp hmay).1 (fun e he _ => (hothers e he).2.2) hlen
  generalize freshId s.queue.entries 33 s.queue.counter = id at hfresh hask
  have hanswer := exec_test_placed (kind := 2) (tag := tag) hready rfl hcl hask
  obtain ⟨pre, post, hsplit, hplace⟩ := placeEntry_split (freshEntry id (bitOf c) r .capture cl) s.queue.entries
  have hfirst := placed_firstEligible hmay (fun e he => (hothers e he).2.1) hsplit hplace
  obtain ⟨t, hshort, hhand⟩ := handOut_short (by exact hidle) (placed_ids hq hfresh.not_mem) hfirst (by exact hbody)
    (not_hasBlocks_iff.mpr ⟨rfl, hpool⟩) fun t ht x hx => by
      obtain ⟨ht, hentries, -⟩ := ht
      rw [hentries, ← hsplit] at hx
      have hsame : isEligible t x = isEligible s x := by
        rw [ht]
        rfl
      exact hsame.trans (hothers x hx).2.1
  rw [newEntry_of_idle hidle, hhand] at hanswer
  obtain ⟨ht, hentries, hcounter, hmarksLeft, hlog, hnotices⟩ := hshort
  have hfree : t.freeCount = s.freeCount := by rw [ht]; rfl
  have habsent := hmarks.absent hfresh.not_mem
  have hqueue : t.queue = { s.queue with counter := if id = 65535 then 1 else id + 1 } := by
    have hm : t.queue.marks = s.queue.marks := perClient_ext fun d =>
      (hmarksLeft d).trans (keptMarks_of_absent (habsent d).1 (habsent d).2)
    have hn : t.queue.counter = if id = 65535 then 1 else id + 1 := hcounter.trans (nextId_eq hfresh.bounds.2)
    show t.queue = { entries := s.queue.entries, counter := _, marks := s.queue.marks }
    rw [← hn, ← hm, hsplit, ← hentries]
  refine ⟨id, { t with freeCount := t.freeCount + 1 }, hfresh, ?_, ?_, hlog, fun d => ?_⟩
  · rw [← hfree]
    exact hanswer.2 fun e he => hfresh.not_mem e (by rwa [hsplit, ← hentries])
  · rw [← hqueue, ht]
    rfl
  · refine (hnotices d).trans ?_
    have hdone : has (freshEntry id (bitOf c) r .capture cl).reqs (bitOf d) = decide (d = c) := has_single c d
    have hnone : markRaises (freshEntry id (bitOf c) r .capture cl).id (placedState id (bitOf c) r .capture cl s) d = [] :=
      congrArg (List.map Notice.mark) (completedMarks_of_absent (habsent d).1 (habsent d).2)
    rw [hdone, hnone, List.append_nil]
    by_cases h : d = c <;> simp [h] <;> rfl

end Sys2Proof.Machine
end

section
/-!
An URGENT TEST that preempts a running ROUTINE entry (R112 to R114): the entry it asks for is the one that is taken.
-/
namespace Sys2Proof.Machine

/-! ### The running entry beside a changed queue -/

/-- A change of WAITING entries leaves the running one. -/
theorem Runs.of_entries {s u : State} {run : Running} {e : Entry} (h : Runs s run e) (hengine : u.engine = s.engine)
    (hmem : e ∈ u.queue.entries) (honly : ∀ x ∈ u.queue.entries, isWaiting x = false → x ∈ s.queue.entries) :
    Runs u run e := by
  have hone : ∀ x ∈ u.queue.entries, isWaiting x = false → x = e := fun x hx hw => h.only x (honly x hx hw) hw
  refine ⟨hengine ▸ h.engine, hmem, hone, ?_, h.id, h.route, h.kind, h.cls, hengine ▸ h.acq⟩
  cases hfind : runningEntry u with
  | none =>
    have := List.find?_eq_none.mp hfind e hmem
    rw [h.acq] at this
    exact absurd rfl this
  | some x =>
    have hx := List.find?_some (p := fun e : Entry => e.running.isSome) hfind
    rw [hone x (List.mem_of_find?_eq_some hfind) (isWaiting_eq_false_iff.mpr (Option.isSome_iff_exists.mp hx))]

/-- Two entries of a list stand in it one before the other. -/
theorem split_two {es : List Entry} {a b : Entry} (ha : a ∈ es) (hb : b ∈ es) (hne : a ≠ b) :
    ∃ x y pre mid post, es = pre ++ x :: mid ++ y :: post ∧ (x = a ∧ y = b ∨ x = b ∧ y = a) := by
  obtain ⟨l, m, rfl⟩ := List.append_of_mem ha
  rcases List.mem_append.mp hb with h | h
  · obtain ⟨l1, l2, rfl⟩ := List.append_of_mem h
    exact ⟨b, a, l1, l2, m, by simp, .inr ⟨rfl, rfl⟩⟩
  · obtain ⟨m1, m2, rfl⟩ := List.append_of_mem ((List.mem_cons.mp h).resolve_left hne.symm)
    exact ⟨a, b, l, m1, m2, by simp, .inl ⟨rfl, rfl⟩⟩

/-- The running entry and its twin, in their order. -/
theorem twin_pair {e y a b : Entry} (hab : a = e ∧ b = y ∨ a = y ∧ b = e) (hw : isWaiting y = true)
    (hr : y.route = e.route) (hk : y.kind = e.kind) :
    (a = e ∧ isWaiting b = true ∨ b = e ∧ isWaiting a = true) ∧ a.route = b.route ∧ a.kind = b.kind := by
  rcases hab with ⟨rfl, rfl⟩ | ⟨rfl, rfl⟩
  · exact ⟨.inl ⟨rfl, hw⟩, hr.symm, hk.symm⟩
  · exact ⟨.inr ⟨rfl, hw⟩, hr, hk⟩

/-! ### The queue after the preemption -/

/-- In `u` the ROUTINE entry `e` runs and of the URGENT entries `new` alone is eligible. -/
structure Preempts (e new : Entry) (u : State) : Prop where
  law : QueueLaw u
  running : e ∈ u.queue.entries
  stops : isWaiting e = false
  routine : e.cls = .routine
  mem : new ∈ u.queue.entries
  waits : isWaiting new = true
  urgent : new.cls = .urgent
  only : ∀ x ∈ u.queue.entries, x.cls = .urgent → isEligible u x = true → x = new

/-- `x` is the entry `new`, or what it has become by a merge: URGENT, WAITING and of the same id, route and kind. -/
structure SameTest (new x : Entry) : Prop where
  id : x.id = new.id
  route : x.route = new.route
  kind : x.kind = new.kind
  waits : isWaiting x = true
  urgent : x.cls = .urgent

theorem eligible_of_open {s : State} {x : Entry} (hw : isWaiting x = true) (hcls : x.cls = .urgent)
    (hopen : isClosed s x.route = false) : isEligible s x = true := by
  rw [isEligible, hw, mayRun_iff.mpr ⟨hopen, .inl hcls⟩]
  rfl

theorem open_of_eligible {s : State} {x : Entry} (h : isEligible s x = true) : isClosed s x.route = false := by
  obtain ⟨-, hmay⟩ := Bool.and_eq_true_iff.mp h
  exact (mayRun_iff.mp hmay).1

theorem GivenUp.eligible {e : Entry} {s t : State} (h : GivenUp e s t) (x : Entry) : isEligible t x = isEligible s x := by
  rw [h.1]
  rfl

theorem GivenUp.closed {e : Entry} {s t : State} (h : GivenUp e s t) (r : RouteNo) : isClosed t r = isClosed s r := by
  rw [h.1]
  rfl

/-- Without a twin the entry waits again in its place (R112). -/
theorem GivenUp.alone {e : Entry} {s t : State} (h : GivenUp e s t)
    (halone : ∀ x ∈ s.queue.entries, isWaiting x = true → ¬(x.route = e.route ∧ x.kind = e.kind)) :
    t.queue.entries = (s.queue.entries.map fun x => if x.id = e.id then { e with running := none } else x)
      ∧ t.queue.marks = s.queue.marks := by
  obtain ⟨-, -, -, hwaits, -⟩ := h
  exact hwaits halone

/-- The entry and its twin become one in the place of the earlier (R113). -/
theorem GivenUp.merged {e a b : Entry} {s t : State} (h : GivenUp e s t) {pre mid post : List Entry}
    (hsplit : s.queue.entries = pre ++ a :: mid ++ b :: post)
    (hone : a = e ∧ isWaiting b = true ∨ b = e ∧ isWaiting a = true) (hroute : a.route = b.route) (hkind : a.kind = b.kind) :
    t.queue.entries = pre
        ++ { id := a.id, route := e.route, kind := e.kind, cls := if b.cls = .urgent then .urgent else a.cls
             reqs := a.reqs ||| b.reqs, running := none } :: mid ++ post
      ∧ t.queue.marks = perGen fun k => (perGet s.queue.marks k).map fun m =>
          { m with wait := if m.wait.contains a.id then m.wait.filter (· != b.id)
                           else m.wait.map fun i => if i = b.id then a.id else i } := by
  obtain ⟨-, -, -, -, hmerges⟩ := h
  exact hmerges pre a mid b post hsplit hone hroute hkind

section
variable {e new : Entry} {u v : State}

/-- The earlier and the later of the running entry and its twin: which of them is `new`, if either is. -/
theorem Preempts.order (h : Preempts e new u) {a b : Entry} {pre mid post : List Entry}
    (hsplit : u.queue.entries = pre ++ a :: mid ++ b :: post) (hb : b = new) : a ≠ e := by
  rintro rfl
  have hcls := h.law.urgentFirst
  rw [hsplit, List.append_assoc] at hcls
  have := (List.pairwise_cons.mp (List.pairwise_append.mp hcls).2.1).1 b (by simp) h.routine
  rw [hb, h.urgent] at this
  cases this

/-- The one URGENT entry that is eligible after the preemption is `new` or what a merge has made of it. -/
theorem Preempts.leaves (h : Preempts e new u) (hgiven : GivenUp e u v) :
    (∃ n ∈ v.queue.entries, SameTest new n)
      ∧ ∀ x ∈ v.queue.entries, x.cls = .urgent → isEligible v x = true → x.id = new.id := by
  have hne : new ≠ e := fun heq => by
    have := h.urgent
    rw [heq, h.routine] at this
    cases this
  have hself : SameTest new new := ⟨rfl, rfl, rfl, h.waits, h.urgent⟩
  obtain ⟨hok, -, -⟩ := queueLaw_iff.mp h.law
  have hids : ∀ x ∈ u.queue.entries, x.id = e.id → x = e := fun x hx => hok.eq_of_id hx h.running
  by_cases htwin : ∀ x ∈ u.queue.entries, isWaiting x = true → ¬(x.route = e.route ∧ x.kind = e.kind)
  · obtain ⟨hentries, -⟩ := hgiven.alone htwin
    rw [hentries]
    refine ⟨⟨new, List.mem_map.mpr ⟨new, h.mem, if_neg fun hid => hne (hids new h.mem hid)⟩, hself⟩, fun x hx hcls helig => ?_⟩
    obtain ⟨y, hy, rfl⟩ := List.mem_map.mp hx
    by_cases hid : y.id = e.id
    · rw [if_pos hid] at hcls
      exact absurd (hcls.symm.trans h.routine) (by decide)
    · rw [if_neg hid] at hcls helig ⊢
      rw [h.only y hy hcls ((hgiven.eligible y).symm.trans helig)]
  · push Not at htwin
    obtain ⟨y, hy, hyw, hyr, hyk⟩ := htwin
    have hey : e ≠ y := fun heq => by
      rw [← heq, h.stops] at hyw
      cases hyw
    obtain ⟨a, b, pre, mid, post, hsplit, hab⟩ := split_two h.running hy hey
    obtain ⟨hone, hlabel⟩ := twin_pair hab hyw hyr hyk
    obtain ⟨hentries, -⟩ := hgiven.merged hsplit hone hlabel.1 hlabel.2
    have hfirst : y = new → a = new ∧ b = e := fun hyn => by
      rcases hab with ⟨ha, hb⟩ | ⟨ha, hb⟩
      · exact absurd ha (h.order hsplit (hb.trans hyn))
      · exact ⟨ha.trans hyn, hb⟩
    rw [hentries]
    refine ⟨?_, fun x hx hcls helig => ?_⟩
    · by_cases hyn : y = new
      · obtain ⟨ha, hb⟩ := hfirst hyn
        refine ⟨_, List.mem_append_left _ (List.mem_append_right _ List.mem_cons_self), show a.id = new.id from congrArg Entry.id ha, ?_, ?_, rfl, ?_⟩
        · exact hyr.symm.trans (congrArg Entry.route hyn)
        · exact hyk.symm.trans (congrArg Entry.kind hyn)
        · show (if b.cls = .urgent then TestClass.urgent else a.cls) = .urgent
          rw [ha, h.urgent, ite_self]
      · have hmem := h.mem
        rw [hsplit] at hmem
        have hna : new ≠ a := by
          rcases hab with ⟨rfl, -⟩ | ⟨rfl, -⟩
          · exact hne
          · exact fun heq => hyn heq.symm
        have hnb : new ≠ b := by
          rcases hab with ⟨-, rfl⟩ | ⟨-, rfl⟩
          · exact fun heq => hyn heq.symm
          · exact hne
        refine ⟨new, ?_, hself⟩
        simp only [List.append_assoc, List.cons_append, List.mem_append, List.mem_cons, hna, hnb, false_or] at hmem ⊢
        tauto
    · have hold : x ∈ u.queue.entries → x.id = new.id := fun hx =>
        congrArg Entry.id (h.only x hx hcls ((hgiven.eligible x).symm.trans helig))
      simp only [List.append_assoc, List.cons_append, List.mem_append, List.mem_cons] at hx
      rcases hx with hx | rfl | hx | hx
      · exact hold (by rw [hsplit]; simp [hx])
      · have hmerged := open_of_eligible helig
        have hopen : isClosed u y.route = false := by
          rw [← hgiven.closed, hyr]
          exact hmerged
        have hurgent : y.cls = .urgent := by
          by_contra hr
          have hyc : y.cls = .routine := by
            cases hc : y.cls with
            | urgent => exact absurd hc hr
            | routine => rfl
          have hboth : a.cls = .routine ∧ b.cls = .routine := by
            rcases hab with ⟨rfl, rfl⟩ | ⟨rfl, rfl⟩
            · exact ⟨h.routine, hyc⟩
            · exact ⟨hyc, h.routine⟩
          have hmerged : (if b.cls = .urgent then TestClass.urgent else a.cls) = .urgent := hcls
          rw [hboth.1, hboth.2] at hmerged
          exact absurd hmerged (by decide)
        show a.id = new.id
        rw [(hfirst (h.only y hy hurgent (eligible_of_open hyw hurgent hopen))).1]
      · exact hold (by rw [hsplit]; simp [hx])
      · exact hold (by rw [hsplit]; simp [hx])

end

/-- The first eligible entry is URGENT where an eligible URGENT one stands (R102). -/
theorem FirstEligible.urgent {pre post : List Entry} {x n : Entry} {s : State} (h : FirstEligible pre x post s)
    (hq : QueueLaw s) (hn : n ∈ s.queue.entries) (hcls : n.cls = .urgent) (helig : isEligible s n = true) :
    x.cls = .urgent := by
  obtain ⟨hsplit, -, hbefore⟩ := h
  rw [hsplit] at hn
  rcases List.mem_append.mp hn with hn | hn
  · rw [hbefore n hn] at helig
    cases helig
  · rcases List.mem_cons.mp hn with rfl | hn
    · exact hcls
    · have hpair := hq.urgentFirst
      rw [hsplit] at hpair
      have hafter := (List.pairwise_cons.mp (List.pairwise_append.mp hpair).2.1).1 n hn
      cases hx : x.cls with
      | urgent => rfl
      | routine =>
        have := hafter hx
        rw [hcls] at this
        cases this

/-- The URGENT entry that preempts is the first eligible one after the stop, and is taken where its blocks are there. -/
theorem Preempts.taken {e new : Entry} {u : State} {run : Running} (h : Preempts e new u) (hruns : Runs u run e)
    (hstop : canStop u.engine.state = true) (hopen : isClosed u new.route = false) {b : RouteBody}
    (hbody : u.routes[new.route].body = some b) :
    ∃ v pre x post, GivenUp e u v ∧ FirstEligible pre x post v ∧ SameTest new x ∧ (∀ y ∈ pre, y.id ≠ new.id)
      ∧ (HasBlocks x b v → ∃ t, Taken pre x post b v t ∧ arbitrate u = t) := by
  have hgiven := stopRunning_givenUp h.law hruns hstop
  have hq : QueueLaw (stopRunning u) := queueLaw_cardStable.stopped u h.law
  have hpreempt : preempt u = stopRunning u := by
    have hurgent := urgentWaits_iff.mpr ⟨new, h.mem, h.urgent, eligible_of_open h.waits h.urgent hopen⟩
    unfold preempt
    rw [hruns.found]
    exact if_pos ⟨h.routine, hurgent⟩
  have hidle : (stopRunning u).engine.state = .idle := by
    rw [(stopRunning_engine hruns hstop).1]
    rfl
  rw [arbitrate, hpreempt]
  generalize stopRunning u = v at hgiven hq hidle
  obtain ⟨⟨n, hn, hsame⟩, honly⟩ := h.leaves hgiven
  obtain ⟨hok, -, -⟩ := queueLaw_iff.mp hq
  have helig : isEligible v n = true :=
    eligible_of_open hsame.waits hsame.urgent (by rw [hsame.route, hgiven.closed]; exact hopen)
  obtain ⟨x, hfind⟩ : ∃ x, v.queue.entries.find? (isEligible v) = some x := by
    cases hf : v.queue.entries.find? (isEligible v) with
    | none => exact absurd helig (List.find?_eq_none.mp hf n hn)
    | some x => exact ⟨x, rfl⟩
  obtain ⟨pre, post, hfirst⟩ := firstEligible_of_find hfind
  have hx := List.mem_of_find?_eq_some hfind
  have hxn : x = n := hok.eq_of_id hx hn ((honly x hx (hfirst.urgent hq hn hsame.urgent helig) hfirst.2.1).trans hsame.id.symm)
  subst hxn
  have hids := hok.ids
  rw [hfirst.1] at hids
  have hbodyV : ∀ r, r = new.route → v.routes[r].body = some b := by
    rintro _ rfl
    rw [hgiven.1]
    exact hbody
  exact ⟨v, pre, x, post, hgiven, hfirst, hsame, fun y hy => hsame.id ▸ (ne_of_split hids).1 y hy,
    fun hblocks => handOut_takes hidle hok.ids hfirst (hbodyV _ hsame.route) hblocks⟩

/-- Settles O26: the new or upgraded entry is the one URGENT entry that is eligible, and stays so when the running one is given
up. -/
theorem urgentTestsPreempt : Obligations.UrgentTestsPreempt := by
  intro c tag r kind k b e s hready hq hrun hk hbody hopen hstop he hwaits hroutine hnone word new counter ups rest u hcase
    hups hrest hu
  have hsome : s.routes[r].body ≠ none := by rw [hbody]; exact Option.some_ne_none b
  obtain ⟨run, hruns⟩ := hrun.runs_of_mem he hwaits
  have hentries : u.queue.entries = ups ++ new :: rest := by rw [hu]
  have hengine : u.engine = s.engine := by rw [hu]
  have hsame : ∀ x, isEligible u x = isEligible s x := fun x => by rw [hu]; rfl
  obtain ⟨hanswer, hlaw, hmemE, hold, hnew⟩ : TestAnswered c tag new.id word (arbitrate u) (exec (.test c tag r kind 1) s)
      ∧ QueueLaw u ∧ e ∈ ups ++ rest ∧ (∀ x ∈ ups ++ rest, x ∈ s.queue.entries)
      ∧ (isWaiting new = true ∧ new.cls = .urgent ∧ new.route = r ∧ new.kind = k) := by
    rcases hcase with ⟨rfl, halone, hlen, hfree, hcounter, hnew, hsplit⟩ | ⟨rfl, hcounter, w, hw, hwait, hwr, hwk, hwc, hnew, hsplit⟩
    · have hid : freshId s.queue.entries 33 s.queue.counter = new.id :=
        hq.freshId_firstFree.unique hfree
      have hask := askTest_new (who := bitOf c) (cls := .urgent) hsome hopen halone hlen
      have hlaw := queueLaw_cardStable.placed (bitOf c) r k .urgent s (CardStable.bitOf_lt_five c) hsome hlen halone hq
      have hplaced : placedState new.id (bitOf c) r k .urgent s = u := by
        have hfreshEntry : freshEntry new.id (bitOf c) r k .urgent = new := hnew.symm
        rw [placedState_eq hfree.bounds.2 hsplit (fun _ => ⟨hups, hrest⟩) (fun h => by cases h), hfreshEntry, hu, hcounter]
      rw [hid] at hask hlaw
      rw [newEntry_eq, if_pos rfl, hplaced] at hask
      rw [hplaced] at hlaw
      rw [hnew]
      exact ⟨exec_test_placed hready hk rfl hask, hlaw, hsplit ▸ he, fun x hx => hsplit ▸ hx, rfl, rfl, rfl, rfl⟩
    · have hask := askTest_join (who := bitOf c) (cls := .urgent) hq hsome hopen hw hwait hwr hwk
      have hlaw := queueLaw_cardStable.upgraded (bitOf c) w s (CardStable.bitOf_lt_five c) hw hq
      have hup : upgradedState (bitOf c) w s = u := by
        rw [upgradedState_eq hsplit hups hrest, hu, hcounter, hnew]
        rfl
      rw [joinEntry_upgrades hwc, hup] at hask
      rw [hup] at hlaw
      have hne : e.id ≠ w.id := fun hid => by
        rw [(queueLaw_iff.mp hq).1.eq_of_id he hw hid, hwait] at hwaits
        cases hwaits
      rw [hnew]
      exact ⟨exec_test_placed hready hk rfl hask, hlaw,
        hsplit ▸ List.mem_filter.mpr ⟨he, bne_iff_ne.mpr hne⟩,
        fun x hx => (List.mem_filter.mp (hsplit ▸ hx : x ∈ s.queue.entries.filter fun x => x.id != w.id)).1,
        hwait, rfl, hwr, hwk⟩
  obtain ⟨hnw, hncls, rfl, hnk⟩ := hnew
  have hmem : ∀ x, x ∈ u.queue.entries ↔ x = new ∨ x ∈ ups ++ rest := fun x => by
    rw [hentries]
    simp only [List.mem_append, List.mem_cons]
    tauto
  have hpreempts : Preempts e new u :=
    { law := hlaw
      running := (hmem e).mpr (.inr hmemE)
      stops := hwaits
      routine := hroutine
      mem := (hmem new).mpr (.inl rfl)
      waits := hnw
      urgent := hncls
      only := fun x hx hcls helig => by
        rcases (hmem x).mp hx with hx | hx
        · exact hx
        · rw [hsame, hnone x (hold x hx) hcls] at helig
          cases helig }
  have hrunsU : Runs u run e := hruns.of_entries hengine hpreempts.running fun x hx hw => by
    rcases (hmem x).mp hx with rfl | hx
    · rw [hnw] at hw
      cases hw
    · exact hold x hx
  obtain ⟨v, pre, x, post, hgiven, hfirst, hx, hbefore, htakes⟩ := hpreempts.taken hrunsU (by rw [hengine]; exact hstop)
    (by rw [hu]; exact hopen) (b := b) (by rw [hu]; exact hbody)
  refine ⟨v, pre, x, post, hgiven, hfirst, hx.id, hx.urgent, hx.route, hx.kind.trans hnk, fun hblocks => ?_⟩
  obtain ⟨t, htaken, harb⟩ := htakes hblocks
  rw [harb] at hanswer
  rw [hx.id]
  exact ⟨t, htaken, hanswer.taken htaken hx.id hbefore⟩

end Sys2Proof.Machine
end

section
/-!
CANCEL and MARK: the entries that leave the queue and the marks that an id leaves or that are opened (R117, R118, R122, R123).
-/
namespace Sys2Proof.Machine

/-! ### An id that leaves the marks (R123) -/

theorem filter_bne_eq (id : Nat) (wait : List Nat) : wait.filter (· != id) = wait.filter fun i => decide (i ≠ id) :=
  List.filter_congr fun i _ => by by_cases h : i = id <;> simp [h]

theorem mem_keptMarks_iff {id : Nat} {ms : List Mark} {m : Mark} :
    m ∈ keptMarks id ms ↔ ∃ x ∈ ms, m = { number := x.number, wait := x.wait.filter fun i => decide (i ≠ id) }
      ∧ ∃ i ∈ x.wait, i ≠ id := by
  have hleft : ∀ x : Mark, x.wait.filter (· != id) ≠ [] ↔ ∃ i ∈ x.wait, i ≠ id := fun x => by
    simp [List.filter_eq_nil_iff]
  constructor
  · intro h
    obtain ⟨x, hx, rfl, hne⟩ := mem_keptMarks h
    exact ⟨x, hx, by rw [filter_bne_eq], (hleft x).mp hne⟩
  · rintro ⟨x, hx, rfl, hne⟩
    have hopen := (hleft x).mpr hne
    rw [← filter_bne_eq]
    exact List.mem_filter.mpr ⟨List.mem_map.mpr ⟨x, hx, rfl⟩, by rw [List.isEmpty_eq_false_iff.mpr hopen]; rfl⟩

theorem mem_completedMarks_iff {id : Nat} {ms : List Mark} {n : Nat} :
    n ∈ completedMarks id ms ↔ ∃ x ∈ ms, x.number = n ∧ ∀ i ∈ x.wait, i = id := by
  simp only [completedMarks, List.mem_map, List.mem_filter, List.isEmpty_iff, List.filter_eq_nil_iff]
  constructor
  · rintro ⟨x, ⟨hx, hwait⟩, hn⟩
    exact ⟨x, hx, hn, fun i hi => by simpa using hwait i hi⟩
  · rintro ⟨x, hx, hn, hwait⟩
    exact ⟨x, ⟨hx, fun i hi => by simpa using hwait i hi⟩, hn⟩

theorem keptMarks_numbers (id : Nat) (ms : List Mark) : ((keptMarks id ms).map Mark.number).Sublist (ms.map Mark.number) := by
  have hmap : ((ms.map fun m => { m with wait := m.wait.filter (· != id) }).map Mark.number) = ms.map Mark.number := by
    rw [List.map_map]
    rfl
  exact hmap ▸ List.filter_sublist.map Mark.number

theorem completedMarks_numbers (id : Nat) (ms : List Mark) : (completedMarks id ms).Sublist (ms.map Mark.number) :=
  List.filter_sublist.map Mark.number

/-! ### CANCEL (R117, R118) -/

theorem exec_cancel {c : Client} {tag : Byte} {id : Nat} {s t : State} {st : Status} {d : ReplyData} (h : Ready c s)
    (ho : ownCancel c id s = (t, st, d)) : exec (.cancel c tag id) s = .next (replied c tag 0x02 st d t) :=
  request_answered (own := ownCancel c id) h (by cases c <;> rfl) ho

/-- The loss of an id from the marks of one client changes its marks and notices alone. -/
theorem dropFromMarks_eq (c : Client) (id : Nat) (s : State) :
    dropFromMarks c id s = { s with
      queue := { s.queue with marks := perSet s.queue.marks c (keptMarks id (perGet s.queue.marks c)) }
      notices := (dropFromMarks c id s).notices } := by
  have hfold : ∀ (ms : List Nat) (u : State), ms.foldl (fun s m => raiseTo (· == c) (.mark m) s) u
      = { u with notices := (ms.foldl (fun s m => raiseTo (· == c) (.mark m) s) u).notices } := by
    intro ms
    induction ms with
    | nil => exact fun u => rfl
    | cons m ms ih => exact fun u => ih (raiseTo (· == c) (.mark m) u)
  exact hfold _ _

section
variable {c : Client} {e : Entry} {s : State} (hq : QueueLaw s) (he : e ∈ s.queue.entries)
include hq he

theorem ownCancel_notRequester (h : has e.reqs (bitOf c) = false) : ownCancel c e.id s = (s, .notRequester, .none) := by
  unfold ownCancel
  rw [find_id_eq hq.2.1 he]
  dsimp only
  rw [h]
  rfl

theorem ownCancel_kept (h : has e.reqs (bitOf c) = true) (hleft : del e.reqs (bitOf c) ≠ 0) :
    ownCancel c e.id s = (dropFromMarks c e.id (setEntries (s.queue.entries.map fun x =>
      if x.id = e.id then { x with reqs := del e.reqs (bitOf c) } else x) s), .ok, .cancel (del e.reqs (bitOf c)) .kept) := by
  unfold ownCancel
  rw [find_id_eq hq.2.1 he]
  dsimp only
  rw [if_neg (by rw [h]; decide), if_pos hleft]

theorem ownCancel_waiting (h : has e.reqs (bitOf c) = true) (hleft : del e.reqs (bitOf c) = 0) (hrun : e.running = none) :
    ownCancel c e.id s = (leaveQueue e .cancelled 0 (some c) s, .ok, .cancel 0 .removed) := by
  unfold ownCancel
  rw [find_id_eq hq.2.1 he]
  dsimp only
  rw [if_neg (by rw [h]; decide), if_neg (not_not.mpr hleft), hrun]

theorem ownCancel_running (h : has e.reqs (bitOf c) = true) (hleft : del e.reqs (bitOf c) = 0) {acq : Nat}
    (hrun : e.running = some acq) :
    ownCancel c e.id s = if stopsFor acq s then
        (handOut (leaveQueue e .cancelled 0 (some c) (stopAcquisition s)), .ok, .cancel 0 .removed)
      else (s, .routeBusy, .none) := by
  unfold ownCancel
  rw [find_id_eq hq.2.1 he]
  dsimp only
  rw [if_neg (by rw [h]; decide), if_neg (not_not.mpr hleft), hrun]

end

theorem ownCancel_noEntry (c : Client) {id : Nat} {s : State} (h : ∀ e ∈ s.queue.entries, e.id ≠ id) :
    ownCancel c id s = (s, .noEntry, .none) := by
  unfold ownCancel
  rw [List.find?_eq_none.mpr fun e he => by simpa using h e he]

/-- An entry that leaves as CANCELLED raises DONE to nobody (R118, R119). -/
theorem cancelled_notices (e : Entry) (c : Client) (s : State) (d : Client) :
    perGet (leaveQueue e .cancelled 0 (some c) s).notices d
      = raisesOf (logRaise s.log d ++ markRaises e.id s d) (perGet s.notices d) := by
  have h := leaveQueue_notices e .cancelled 0 (some c) s d
  have hnobody : has (0 : RequesterSet) (bitOf d) = false := has_zero _
  rw [hnobody] at h
  simpa using h

/-- The running entry whose last requester cancels it: the acquisition has stopped and the entry has left (R17, R118). -/
theorem cancelled_running (e : Entry) (c : Client) (s t : State)
    (ht : t = leaveQueue e .cancelled 0 (some c) (stopAcquisition s)) :
    t = { s with
        front := { s.front with laser := false, checking := false }
        engine := engineFree .idle none s.engine
        store := t.store, queue := t.queue, log := t.log, notices := t.notices }
      ∧ ReservationReturned s t
      ∧ t.queue.entries = s.queue.entries.filter (fun x => x.id != e.id) ∧ t.queue.counter = s.queue.counter
      ∧ (∀ d, perGet t.queue.marks d = keptMarks e.id (perGet s.queue.marks d))
      ∧ LoggedAt s.clock.now s t [.testDone e.route e.id e.kind .cancelled 0 (some c)]
      ∧ ∀ d, perGet t.notices d = raisesOf (logRaise s.log d ++ markRaises e.id s d) (perGet s.notices d) := by
  have hframe := leaveQueue_queueOnly e .cancelled 0 (some c) (stopAcquisition s)
  obtain ⟨hentries, hcounter, hlog⟩ := leaveQueue_queue e .cancelled 0 (some c) (stopAcquisition s)
  have hmarks := leaveQueue_marks e .cancelled 0 (some c) (stopAcquisition s)
  have hnotices := cancelled_notices e c (stopAcquisition s)
  rw [← ht] at hframe hentries hcounter hlog hmarks hnotices
  have hclock : (stopAcquisition s).clock = s.clock := (stopAcquisition_portOnly s).clock
  have hraises : ∀ d, markRaises e.id (stopAcquisition s) d = markRaises e.id s d := fun d => by
    unfold markRaises
    rw [stopAcquisition_queue]
  rw [stopAcquisition_queue] at hentries hcounter
  rw [stopAcquisition_log, hclock] at hlog
  refine ⟨?_, ?_, hentries, hcounter, fun d => (hmarks d).trans (by rw [stopAcquisition_queue]), hlog, fun d => ?_⟩
  · have hstore : t.store = (stopAcquisition s).store := hframe.store
    rw [hstore]
    exact hframe.eq.trans (congrArg (fun u : State => { u with queue := t.queue, log := t.log, notices := t.notices })
      (stopAcquisition_eq s))
  · unfold ReservationReturned
    rw [hframe.store]
    exact stopAcquisition_returned s
  · rw [hnotices d, hraises, stopAcquisition_log, stopAcquisition_notices]

/-- Settles O30: each outcome of CANCEL is one branch of its definition, and the marks are the lists of the definition. -/
theorem cancelRules : Obligations.CancelRules := by
  refine ⟨fun id ms => ⟨fun _ => mem_keptMarks_iff, fun _ => mem_completedMarks_iff, keptMarks_numbers id ms,
    completedMarks_numbers id ms, fun hsorted => ?_⟩, fun c tag s hready hq => ⟨fun id hid => ?_, fun e he =>
    ⟨fun hreq => ?_, fun hreq hleft => ?_, fun hreq hleft => ⟨fun acq hrun hlate => ?_, fun hrun => ?_⟩⟩⟩, ?_⟩
  · have hnumbers : (ms.map Mark.number).Pairwise (· < ·) := List.pairwise_map.mpr hsorted
    exact ⟨List.pairwise_map.mp (hnumbers.sublist (keptMarks_numbers id ms)), hnumbers.sublist (completedMarks_numbers id ms)⟩
  · exact exec_cancel hready (ownCancel_noEntry c hid)
  · exact exec_cancel hready (ownCancel_notRequester hq he hreq)
  · refine ⟨_, exec_cancel hready (ownCancel_kept hq he hreq hleft), dropFromMarks_eq c e.id _, fun d => ?_⟩
    refine (dropFromMarks_notices c e.id _ d).trans ?_
    split
    · rename_i hd
      rw [hd]
      rfl
    · rfl
  · refine exec_cancel hready ((ownCancel_running hq he hreq hleft hrun).trans (if_neg ?_))
    rcases hlate with h | h <;> simp [stopsFor, h]
  · obtain ⟨hentries, hcounter, hlog⟩ := leaveQueue_queue e .cancelled 0 (some c) s
    exact ⟨_, exec_cancel hready (ownCancel_waiting hq he hreq hleft hrun), (leaveQueue_queueOnly _ _ _ _ _).eq, hentries,
      hcounter, leaveQueue_marks _ _ _ _ _, hlog, cancelled_notices e c s⟩
  · intro c tag e s hready hq he hrun hstop hreq hleft
    have hstops : stopsFor s.engine.acq s = true := by simp [stopsFor, hstop]
    have hanswer := exec_cancel (tag := tag) hready ((ownCancel_running hq he hreq hleft hrun).trans (if_pos hstops))
    generalize ht : leaveQueue e .cancelled 0 (some c) (stopAcquisition s) = t at hanswer
    have hcancelled := cancelled_running e c s t ht.symm
    refine ⟨t, hanswer, fun hnone => handOut_of_none (List.find?_eq_none.mpr fun x hx => ?_), hcancelled⟩
    obtain ⟨hstate, -, hentries, -⟩ := hcancelled
    rw [hentries] at hx
    have hsame : isEligible t x = isEligible s x := by
      rw [hstate]
      rfl
    rw [hsame, hnone x (List.mem_filter.mp hx).1]
    decide

/-! ### MARK (R122) -/

theorem exec_mark {c : Client} {tag : Byte} {s t : State} {st : Status} {d : ReplyData} (h : Ready c s)
    (ho : ownMark c s = (t, st, d)) : exec (.mark c tag) s = .next (replied c tag 0x03 st d t) :=
  request_answered (own := ownMark c) h (by cases c <;> rfl) ho

theorem insertMark_perm (m : Mark) (ms : List Mark) : (insertMark m ms).Perm (m :: ms) :=
  List.perm_middle.trans (List.Perm.cons m (by rw [List.takeWhile_append_dropWhile]))

/-- A raise to one client. -/
theorem raiseTo_one (c : Client) (k : Notice) (s : State) :
    raiseTo (· == c) k s = { s with notices := perSet s.notices c (raiseNotice k (perGet s.notices c)) } := by
  have h : (raiseTo (· == c) k s).notices = perSet s.notices c (raiseNotice k (perGet s.notices c)) := by
    refine perClient_ext fun d => ?_
    rw [perGet_raiseTo, perGet_perSet]
    by_cases hd : d = c <;> simp [hd]
  rw [← h]
  rfl

/-- Settles O31: the mark takes the lowest free number and waits for what its client requests. -/
theorem markOpensOrCompletes : Obligations.MarkOpensOrCompletes := by
  intro c tag s hready
  refine ⟨fun hfull => exec_mark hready (if_pos hfull), fun hlen => ?_⟩
  obtain ⟨hlt, hfree, hlower⟩ := freeMark_free hlen
  refine ⟨_, hlt, hfree, hlower, fun hnone => exec_mark hready ?_, fun ⟨e, he, hreq⟩ =>
    ⟨_, insertMark_perm _ _, fun hsorted => insertMark_sorted hfree hsorted, exec_mark hready ?_⟩⟩
  · have hwait : requestedBy c s.queue.entries = [] := by
      rw [requestedBy, List.filter_eq_nil_iff.mpr fun e he => by rw [hnone e he]; decide, List.map_nil]
    unfold ownMark
    dsimp only
    rw [if_neg (Nat.not_le.mpr hlen), if_pos hwait, raiseTo_one]
  · have hwait : requestedBy c s.queue.entries ≠ [] :=
      List.ne_nil_of_mem (List.mem_map_of_mem (List.mem_filter.mpr ⟨he, hreq⟩))
    unfold ownMark
    dsimp only
    rw [if_neg (Nat.not_le.mpr hlen), if_neg hwait]
    have hcount : (requestedBy c s.queue.entries).length
        = (s.queue.entries.filter fun e => has e.reqs (bitOf c)).length := List.length_map _
    rw [← hcount]
    rfl

end Sys2Proof.Machine
end

section
/-!
DEFINE_ROUTE: the refused and the clamped values, the checks of R64 and what an accepted definition leaves (R64 to R72).
-/
namespace Sys2Proof.Machine

theorem permitted_of_ne_ls {c : Client} {code : Nat} (hc : c ≠ .ls) (h : craftOnly code = false) : permitted code c = true := by
  cases c with
  | ls => exact absurd rfl hc
  | scA | scB => simp [permitted, h]
  | cr => rfl

/-! ### Refused fields (R65) -/

/-- Whether the field of code `f` is refused. -/
def fieldRefused (d : RouteDef) : Nat → Bool
  | 1 => labelRefused d.label
  | 2 => decide (5 < d.pulse)
  | 3 => decide (4 < d.spacing)
  | 4 => decide (d.len < 1024 ∨ 32768 < d.len ∨ d.len % 1024 ≠ 0)
  | 5 => decide (d.shots < 4 ∨ 16 < d.shots)
  | 6 => decide (d.index < 14000 ∨ 15500 < d.index)
  | 7 => decide (1023 < d.dead)
  | _ => false

theorem labelRefused_iff {l : Option (List Nat)} :
    labelRefused l = true ↔ ∃ cs, l = some cs ∧ (16 < cs.length ∨ ∃ ch ∈ cs, ch < 0x20 ∨ 0x7E < ch) := by
  cases l with
  | none => simp [labelRefused]
  | some cs => simp [labelRefused]

theorem fieldRefused_iff (d : RouteDef) (f : Nat) : fieldRefused d f = true ↔ FieldRefused d f := by
  match f with
  | 0 => exact ⟨fun h => Bool.noConfusion h, fun h => h.elim⟩
  | 1 => exact labelRefused_iff
  | 2 | 3 | 4 | 5 | 6 | 7 => exact decide_eq_true_iff
  | _ + 8 => exact ⟨fun h => Bool.noConfusion h, fun h => h.elim⟩

theorem fieldRefused_lt {d : RouteDef} {f : Nat} (h : fieldRefused d f = true) : f < 8 := by
  match f, h with
  | 0, h | 1, h | 2, h | 3, h | 4, h | 5, h | 6, h | 7, h => omega
  | _ + 8, h => cases h

/-- The refused field that is named is the first one in the order of Table 4-1. -/
theorem refusedField_eq_find (d : RouteDef) : refusedField d = (List.range 8).find? (fieldRefused d) := by
  have hrange : List.range 8 = [0, 1, 2, 3, 4, 5, 6, 7] := rfl
  rw [hrange]
  simp only [refusedField, List.find?_cons, List.find?_nil, fieldRefused]
  cases labelRefused d.label
  · by_cases h2 : 5 < d.pulse
    · simp [h2]
    by_cases h3 : 4 < d.spacing
    · simp [h2, h3]
    by_cases h4 : d.len < 1024 ∨ 32768 < d.len ∨ d.len % 1024 ≠ 0
    · simp only [h2, h3, h4, decide_true, decide_false, if_true, if_false, Bool.false_eq_true]
    by_cases h5 : d.shots < 4 ∨ 16 < d.shots
    · simp only [h2, h3, h4, h5, decide_true, decide_false, if_true, if_false, Bool.false_eq_true]
    by_cases h6 : d.index < 14000 ∨ 15500 < d.index
    · simp only [h2, h3, h4, h5, h6, decide_true, decide_false, if_true, if_false, Bool.false_eq_true]
    by_cases h7 : 1023 < d.dead <;>
      simp only [h2, h3, h4, h5, h6, h7, decide_true, decide_false, if_true, if_false, Bool.false_eq_true]
  · rfl

theorem refusedField_iff {d : RouteDef} {f : Nat} :
    refusedField d = some f ↔ FieldRefused d f ∧ ∀ g, g < f → ¬FieldRefused d g := by
  rw [refusedField_eq_find, List.find?_range_eq_some]
  simp only [Bool.not_eq_eq_eq_not, Bool.not_true, ← Bool.not_eq_true, fieldRefused_iff, List.mem_range]
  exact ⟨fun ⟨h, _, hg⟩ => ⟨h, hg⟩, fun ⟨h, hg⟩ => ⟨h, fieldRefused_lt ((fieldRefused_iff d f).mpr h), hg⟩⟩

/-! ### Clamped values (R66, R67) -/

theorem clampedTo_clamp {lo hi : Nat} (h : lo ≤ hi) (x : Nat) : ClampedTo lo hi x (clamp lo hi x) := by
  unfold ClampedTo clamp
  omega

/-- The fields that may be clamped: code, value sent and value stored. -/
def clampable (d : RouteDef) : List (Nat × Nat × Nat) :=
  [(8, d.width, (judgingOf d).width), (9, d.tLoss, (judgingOf d).tLoss), (10, d.tTotal, (judgingOf d).tTotal),
   (11, d.tEnd, (judgingOf d).tEnd), (12, d.tReflect, (judgingOf d).tReflect),
   (13, d.floor, (judgingOf d).floor), (14, d.confirm, (judgingOf d).confirm)]

theorem clampedFields_eq (d : RouteDef) :
    clampedFields d = ((clampable d).filter fun x => decide (x.2.1 ≠ x.2.2)).map fun x => (x.1, x.2.2) := by
  have h : ∀ l : List (Nat × Nat × Nat),
      l.filterMap (fun x => if x.2.1 = x.2.2 then none else some (x.1, x.2.2))
        = (l.filter fun x => decide (x.2.1 ≠ x.2.2)).map fun x => (x.1, x.2.2) := by
    intro l
    induction l with
    | nil => rfl
    | cons x l ih => by_cases hx : x.2.1 = x.2.2 <;> simp [hx, ih]
  exact h (clampable d)

theorem mem_clampedFields_iff {d : RouteDef} {code v : Nat} :
    (code, v) ∈ clampedFields d ↔ ∃ sent, sent ≠ v ∧ (code, sent, v) ∈ clampable d := by
  rw [clampedFields_eq, List.mem_map]
  constructor
  · rintro ⟨⟨code', sent, v'⟩, hx, heq⟩
    obtain ⟨hmem, hne⟩ := List.mem_filter.mp hx
    cases heq
    exact ⟨sent, of_decide_eq_true hne, hmem⟩
  · rintro ⟨sent, hne, hmem⟩
    exact ⟨(code, sent, v), List.mem_filter.mpr ⟨hmem, decide_eq_true hne⟩, rfl⟩

theorem clampedFields_sorted (d : RouteDef) : ((clampedFields d).map Prod.fst).Pairwise (· < ·) := by
  have hcodes : ((clampable d).map fun x => x.1) = [8, 9, 10, 11, 12, 13, 14] := rfl
  have hsub : ((clampedFields d).map Prod.fst).Sublist ((clampable d).map fun x => x.1) := by
    rw [clampedFields_eq, List.map_map]
    exact List.filter_sublist.map _
  refine List.Pairwise.sublist hsub ?_
  rw [hcodes]
  decide

theorem spacingCm_pos (n : Nat) : 0 < spacingCm n := by
  unfold spacingCm
  split <;> decide

/-- The pulse span is rounded up (R31). -/
theorem pulseSpan_bounds (p n : Nat) : pulseNs p * 20 ≤ pulseSpan p n * spacingCm n
    ∧ pulseSpan p n * spacingCm n < pulseNs p * 20 + spacingCm n := by
  have hpos := spacingCm_pos n
  have hdiv := Nat.div_add_mod (pulseNs p * 20 + (spacingCm n - 1)) (spacingCm n)
  have hmod := Nat.mod_lt (pulseNs p * 20 + (spacingCm n - 1)) hpos
  unfold pulseSpan
  rw [Nat.mul_comm] at hdiv
  omega

/-! ### The checks of R64 -/

theorem exec_defineRoute {c : Client} {tag : Byte} {n rev : Nat} {d : RouteDef} {s t : State} {st : Status} {x : ReplyData}
    (h : Ready c s) (hc : c ≠ .ls) (ho : ownDefineRoute c n rev d s = (t, st, x)) :
    exec (.defineRoute c tag n rev d) s = .next (replied c tag 0x05 st x t) :=
  request_answered (own := ownDefineRoute c n rev d) h (permitted_of_ne_ls hc rfl) ho

theorem routeOf_large {n : Nat} (h : 48 ≤ n) : routeOf n = none := dif_neg (Nat.not_lt.mpr h)

theorem ownDefineRoute_noRoute (c : Client) {n : Nat} (rev : Nat) (d : RouteDef) (s : State) (h : 48 ≤ n) :
    ownDefineRoute c n rev d s = (s, .badValue, .field 0) := by
  unfold ownDefineRoute
  rw [routeOf_large h]

section
variable {c : Client} {r : RouteNo} {d : RouteDef} {s : State}

theorem ownDefineRoute_stale {rev : Nat} (h : rev ≠ s.routes[r].revision) :
    ownDefineRoute c r rev d s = (s, .stale, .revision s.routes[r].revision) := by
  unfold ownDefineRoute
  rw [routeOf_val]
  exact if_pos h

theorem ownDefineRoute_refused {f : Nat} (h : refusedField d = some f) :
    ownDefineRoute c r s.routes[r].revision d s = (s, .badValue, .field f) := by
  unfold ownDefineRoute
  rw [routeOf_val, h]
  exact if_neg (not_not.mpr rfl)

theorem ownDefineRoute_checked (h : refusedField d = none) :
    ownDefineRoute c r s.routes[r].revision d s
      = if d.len < deadZone (acqOf d) d.dead + 2 * (judgingOf d).width then (s, .badValue, .field 15)
        else if changesAcq s.routes[r] d && routeRunning s r then (s, .routeBusy, .none)
        else (acceptDefinition c r d s,
          if clampedFields d = [] then (.ok, .revision (nextRevision s.routes[r]))
          else (.okClamped, .clamped (clampedFields d) (nextRevision s.routes[r]))) := by
  unfold ownDefineRoute
  rw [routeOf_val, h]
  exact if_neg (not_not.mpr rfl)

theorem changesAcq_iff {e : RouteEntry} : changesAcq e d = true ↔ ∃ b, e.body = some b ∧ b.acq ≠ acqOf d := by
  unfold changesAcq
  cases e.body with
  | none => simp
  | some b => simp

theorem routeRunning_iff : routeRunning s r = true ↔ ∃ e ∈ s.queue.entries, isWaiting e = false ∧ e.route = r := by
  simp only [routeRunning, List.any_eq_true, Bool.and_eq_true, decide_eq_true_eq, isWaiting]
  refine exists_congr fun e => and_congr_right fun _ => and_congr_left fun _ => ?_
  cases e.running <;> simp

end

/-- Settles O32: the refused field is the first of the list, each clamp is one of the ranges, and the checks come in the order
of the definition. -/
theorem definitionsAreRefusedOrClamped : Obligations.DefinitionsAreRefusedOrClamped := by
  refine ⟨⟨rfl, rfl⟩, fun d => ⟨fun _ => refusedField_iff, rfl, rfl, clampedTo_clamp (by decide) _,
    clampedTo_clamp (by decide) _, clampedTo_clamp (by decide) _, clampedTo_clamp (by decide) _,
    clampedTo_clamp (by decide) _, clampedTo_clamp (by decide) _, clampedTo_clamp (by decide) _,
    fun _ _ => mem_clampedFields_iff, clampedFields_sorted d, rfl, pulseSpan_bounds _ _⟩, fun c tag d s hready hc =>
    ⟨fun n rev hn => exec_defineRoute hready hc (ownDefineRoute_noRoute c rev d s hn), fun r =>
      ⟨fun rev hrev => exec_defineRoute hready hc (ownDefineRoute_stale hrev),
        fun f hf => exec_defineRoute hready hc (ownDefineRoute_refused hf),
        fun hf hlen => exec_defineRoute hready hc ((ownDefineRoute_checked hf).trans (if_pos hlen)),
        fun hf hlen hchange hrun => exec_defineRoute hready hc ((ownDefineRoute_checked hf).trans
          ((if_neg (Nat.not_lt.mpr hlen)).trans (if_pos ?_)))⟩⟩⟩
  rw [changesAcq_iff.mpr hchange, routeRunning_iff.mpr hrun]
  rfl

/-! ### A condition that goes to UNKNOWN (R134) -/

/-- The condition records with that of `r` gone to UNKNOWN. -/
def unknownFaults (r : RouteNo) (s : State) : Vector FaultRecord 48 :=
  if s.faults[r].cond = .unknown then s.faults else s.faults.set r (FaultRecord.unknownAt s.clock.now)

/-- What going to UNKNOWN changes, writes and raises. -/
theorem setUnknown_state (r : RouteNo) (c : Client) (s : State) :
    setUnknown r c s = { s with
        cands := s.cands.set r none, faults := unknownFaults r s
        log := (setUnknown r c s).log, notices := (setUnknown r c s).notices }
      ∧ LoggedAt s.clock.now s (setUnknown r c s)
          (if s.faults[r].cond = .unknown then [] else [.faultChange r .unknown none (some c)])
      ∧ ∀ k, perGet (setUnknown r c s).notices k
          = raisesOf (if s.faults[r].cond = .unknown then [] else logRaise s.log k ++ [.fault r false])
              (perGet s.notices k) := by
  unfold LoggedAt unknownFaults
  rcases setUnknown_cases r c s with ⟨hu, h⟩ | ⟨hk, h⟩ <;> rw [h]
  · rw [if_pos hu, if_pos hu]
    exact ⟨rfl, rfl, fun k => by rw [if_pos hu]; rfl⟩
  · rw [if_neg hk, if_neg hk]
    refine ⟨rfl, rfl, fun k => ?_⟩
    rw [if_neg hk, reportChange, raiseAll, perGet_raiseTo, if_pos rfl, logWrite_raises, raisesOf_append]
    rfl

/-! ### What an accepted definition leaves (R66, R69 to R72) -/

theorem definedEntry_eq {e : RouteEntry} {d : RouteDef} {label : Option (List Nat)} {keep : Option Baseline}
    (hlabel : storedLabel d.label = label)
    (hkeep : (if changesAcq e d then none else e.body.bind RouteBody.baseline) = keep) :
    definedEntry e d = { revision := (e.revision + 1) % 65536, holds := e.holds
                         body := some { label := label, acq := acqOf d, judging := judgingOf d, baseline := keep } } := by
  unfold definedEntry
  rw [hlabel, hkeep]
  rfl

theorem storedLabel_eq {l label : Option (List Nat)} (hnone : l = none ∨ l = some [] → label = none)
    (hsome : ∀ ch cs, l = some (ch :: cs) → label = l) : storedLabel l = label := by
  match l with
  | none => exact (hnone (.inl rfl)).symm
  | some [] => exact (hnone (.inr rfl)).symm
  | some (ch :: cs) => exact (hsome ch cs rfl).symm

theorem ownDefineRoute_accepted {c : Client} {r : RouteNo} {d : RouteDef} {s : State} {status : Status} {data : ReplyData}
    (hf : refusedField d = none) (hlen : deadZone (acqOf d) d.dead + 2 * (judgingOf d).width ≤ d.len)
    (hfree : (∃ e ∈ s.queue.entries, isWaiting e = false ∧ e.route = r) → ∀ b, s.routes[r].body = some b → b.acq = acqOf d)
    (hok : clampedFields d = [] → status = .ok ∧ data = .revision (nextRevision s.routes[r]))
    (hclamped : clampedFields d ≠ [] →
      status = .okClamped ∧ data = .clamped (clampedFields d) (nextRevision s.routes[r])) :
    ownDefineRoute c r s.routes[r].revision d s = (acceptDefinition c r d s, status, data) := by
  have hbusy : ¬(changesAcq s.routes[r] d && routeRunning s r) = true := by
    rw [Bool.and_eq_true, changesAcq_iff, routeRunning_iff]
    rintro ⟨⟨b, hb, hne⟩, hrun⟩
    exact hne (hfree hrun b hb)
  rw [ownDefineRoute_checked hf, if_neg (Nat.not_lt.mpr hlen), if_neg hbusy]
  by_cases h : clampedFields d = []
  · obtain ⟨rfl, rfl⟩ := hok h
    rw [if_pos h]
  · obtain ⟨rfl, rfl⟩ := hclamped h
    rw [if_neg h]

/-- Settles O33: an accepted definition keeps the baseline, or discards it with its blocks and its condition. -/
theorem defineRouteAccepted : Obligations.DefineRouteAccepted := by
  rintro c tag r d s hready hc hf hlen hfree status data rev label rfl hok hclamped hnone hsome
  have hanswer := exec_defineRoute (tag := tag) hready hc (ownDefineRoute_accepted hf hlen hfree hok hclamped)
  have hlabel := storedLabel_eq hnone hsome
  refine ⟨fun keep hunused hbody hkept => ?_, fun b x hb hx hne => ?_⟩
  · rcases acceptDefinition_cases c r d s with ⟨⟨hchange, hbase⟩, -⟩ | ⟨-, h⟩
    · obtain ⟨b, hb, hbx⟩ := routeStatus_eq_baselined_iff.mp hbase
      obtain ⟨x, hx⟩ := Option.isSome_iff_exists.mp hbx
      obtain ⟨b', hb', hne⟩ := changesAcq_iff.mp hchange
      obtain rfl : b = b' := Option.some.inj (hb.symm.trans hb')
      exact absurd (hkept b x hb hx) hne
    · have hkeep : (if changesAcq s.routes[r] d then none else s.routes[r].body.bind RouteBody.baseline) = keep := by
        cases hb : s.routes[r].body with
        | none =>
          rw [hunused hb]
          exact ite_self none
        | some b =>
          obtain ⟨hsame, hbare⟩ := hbody b hb
          by_cases hacq : b.acq = acqOf d
          · have hn : ¬changesAcq s.routes[r] d = true := fun hch => by
              obtain ⟨b', hb', hne⟩ := changesAcq_iff.mp hch
              obtain rfl : b = b' := Option.some.inj (hb.symm.trans hb')
              exact hne hacq
            rw [if_neg hn]
            exact (hsame hacq).symm
          · rw [if_pos (changesAcq_iff.mpr ⟨b, hb, hacq⟩)]
            cases hx : b.baseline with
            | none => exact (hbare hx).symm
            | some x => exact absurd (hkept b x hb hx) hacq
      rw [h, definedEntry_eq hlabel hkeep] at hanswer
      exact ⟨_, hanswer, rfl, rfl, fun k => logWrite_raises _ _ k⟩
  · have hchange := changesAcq_iff.mpr ⟨b, hb, hne⟩
    have hbase := routeStatus_eq_baselined_iff.mpr ⟨b, hb, by rw [hx]; rfl⟩
    rcases acceptDefinition_cases c r d s with ⟨-, h⟩ | ⟨hno, -⟩
    · have hblocks : baselineBlocks s.routes[r] = x.blocks := by
        rw [baselineBlocks_eq, hb, Option.bind_some, hx]
        rfl
      rw [h, definedEntry_eq hlabel (if_pos hchange), hblocks] at hanswer
      obtain ⟨hstate, hlog, hnotices⟩ := setUnknown_state r c (logWrite (.routeChange r c .defined)
        (freeBlocks x.blocks (setRoute r _ s)))
      refine ⟨_, hanswer, ?_, ?_, ?_, ?_⟩
      · rw [hstate]
        rfl
      · rw [hstate]
        exact giveBack_mem x.blocks s.store.free
      · exact hlog
      · intro k
        refine (hnotices k).trans ?_
        rw [logWrite_raises, ← raisesOf_append]
        rfl
    · exact absurd ⟨hchange, hbase⟩ hno

end Sys2Proof.Machine
end

section
/-!
DELETE_ROUTE: its refusals, and the entries of the route that leave the queue one after another (R73, R74, R119, R120).
-/
namespace Sys2Proof.Machine

/-! ### Entries that leave one after another (R120) -/

/-- What entries that leave the queue one after another take with them, write and raise. -/
theorem leaveAll_left (out : TestOutcome) (es : List Entry) (s t : State)
    (ht : t = es.foldl (fun s e => leaveQueue e out e.reqs none s) s) :
    t.queue.entries = s.queue.entries.filter (fun x => es.all fun e => x.id != e.id)
      ∧ t.queue.counter = s.queue.counter
      ∧ (∀ k, perGet t.queue.marks k = es.foldl (fun ms e => keptMarks e.id ms) (perGet s.queue.marks k))
      ∧ LoggedAt s.clock.now s t (es.map fun e => .testDone e.route e.id e.kind out e.reqs none)
      ∧ ∀ k, perGet t.notices k
          = raisesOf (leaveRaises s.clock.now out k es s.log (perGet s.queue.marks k)) (perGet s.notices k) := by
  induction es generalizing s with
  | nil =>
    subst ht
    exact ⟨(List.filter_eq_self.mpr fun _ _ => rfl).symm, rfl, fun _ => rfl, rfl, fun _ => rfl⟩
  | cons e es ih =>
    obtain ⟨hentries, hcounter, hlog⟩ := leaveQueue_queue e out e.reqs none s
    have hmarks := leaveQueue_marks e out e.reqs none s
    have hnotices := leaveQueue_notices e out e.reqs none s
    have hclock : (leaveQueue e out e.reqs none s).clock = s.clock := (leaveQueue_queueOnly _ _ _ _ _).clock
    rw [List.foldl_cons] at ht
    generalize leaveQueue e out e.reqs none s = u at ht hentries hcounter hlog hmarks hnotices hclock
    obtain ⟨ihe, ihc, ihm, ihl, ihn⟩ := ih u ht
    rw [hentries, List.filter_filter] at ihe
    rw [hclock] at ihl
    refine ⟨ihe.trans (List.filter_congr fun x _ => ?_), ihc.trans hcounter, fun k => ?_, ?_, fun k => ?_⟩
    · rw [List.all_cons, Bool.and_comm]
    · exact (ihm k).trans (by rw [hmarks k]; rfl)
    · unfold LoggedAt at ihl ⊢
      rw [List.map_cons, List.foldl_cons, ← hlog]
      exact ihl
    · refine (ihn k).trans ?_
      rw [hnotices k, hmarks k, hlog, hclock, ← raisesOf_append]
      rfl

/-- With unique ids, an entry is not among some entries of the queue just when its id is not. -/
theorem filter_ids {es : List Entry} (hids : (es.map Entry.id).Nodup) (p : Entry → Bool) :
    es.filter (fun x => (es.filter p).all fun e => x.id != e.id) = es.filter fun x => !p x := by
  refine List.filter_congr fun x hx => ?_
  cases hp : p x with
  | true =>
    refine Bool.eq_false_iff.mpr fun hall => ?_
    have := List.all_eq_true.mp hall x (List.mem_filter.mpr ⟨hx, hp⟩)
    exact bne_iff_ne.mp this rfl
  | false =>
    refine List.all_eq_true.mpr fun e he => bne_iff_ne.mpr fun hid => ?_
    obtain ⟨hmem, hpe⟩ := List.mem_filter.mp he
    rw [← List.inj_on_of_nodup_map hids hx hmem hid, hp] at hpe
    cases hpe

/-! ### The checks of R73 -/

theorem exec_deleteRoute {c : Client} {tag : Byte} {n rev : Nat} {s t : State} {st : Status} {x : ReplyData}
    (h : Ready c s) (hc : c ≠ .ls) (ho : ownDeleteRoute c n rev s = (t, st, x)) :
    exec (.deleteRoute c tag n rev) s = .next (replied c tag 0x06 st x t) :=
  request_answered (own := ownDeleteRoute c n rev) h (permitted_of_ne_ls hc rfl) ho

theorem ownDeleteRoute_noNumber (c : Client) {n : Nat} (rev : Nat) (s : State) (h : 48 ≤ n) :
    ownDeleteRoute c n rev s = (s, .badValue, .none) := by
  unfold ownDeleteRoute
  rw [routeOf_large h]

theorem ownDeleteRoute_eq (c : Client) (r : RouteNo) (rev : Nat) (s : State) :
    ownDeleteRoute c r rev s
      = if routeStatus s.routes[r] = .unused then (s, .noRoute, .none)
        else if rev ≠ s.routes[r].revision then (s, .stale, .revision s.routes[r].revision)
        else if routeRunning s r then (s, .routeBusy, .none)
        else (acceptDeletion c r s, .ok, .revision (nextRevision s.routes[r])) := by
  unfold ownDeleteRoute
  rw [routeOf_val]

theorem ownDeleteRoute_defined (c : Client) {r : RouteNo} (rev : Nat) {s : State} {b : RouteBody}
    (hb : s.routes[r].body = some b) :
    ownDeleteRoute c r rev s
      = if rev ≠ s.routes[r].revision then (s, .stale, .revision s.routes[r].revision)
        else if routeRunning s r then (s, .routeBusy, .none)
        else (acceptDeletion c r s, .ok, .revision (nextRevision s.routes[r])) := by
  rw [ownDeleteRoute_eq, if_neg]
  rw [routeStatus_eq_unused_iff, hb]
  exact Option.some_ne_none b

theorem ownDeleteRoute_current (c : Client) {r : RouteNo} {s : State} {b : RouteBody} (hb : s.routes[r].body = some b) :
    ownDeleteRoute c r s.routes[r].revision s
      = if routeRunning s r then (s, .routeBusy, .none)
        else (acceptDeletion c r s, .ok, .revision (nextRevision s.routes[r])) := by
  rw [ownDeleteRoute_defined c _ hb, if_neg (not_not.mpr rfl)]

/-! ### What an accepted deletion leaves (R74) -/

/-- The route emptied, its record removed, its blocks free and the change logged: a deletion before its condition and its
entries go. -/
def unroutedState (c : Client) (r : RouteNo) (s : State) : State :=
  logWrite (.routeChange r c .deleted)
    (freeBlocks (baselineBlocks s.routes[r]) (setRecord r none (setRoute r (deletedEntry s.routes[r]) s)))

theorem acceptDeletion_removes (c : Client) (r : RouteNo) (s : State) :
    acceptDeletion c r s = removeWaiting r (setUnknown r c (unroutedState c r s)) := rfl

theorem unroutedState_raises (c : Client) (r : RouteNo) (s : State) (k : Client) :
    perGet (unroutedState c r s).notices k = raisesOf (logRaise s.log k) (perGet s.notices k) :=
  logWrite_raises _ _ k

theorem mem_baselineBlocks {e : RouteEntry} {b : RouteBody} (hb : e.body = some b) {k : Nat} :
    k ∈ baselineBlocks e ↔ ∃ x, b.baseline = some x ∧ k ∈ x.blocks := by
  rw [baselineBlocks_eq, hb, Option.bind_some]
  cases b.baseline with
  | none => simp
  | some x => simp

theorem unknownFaults_of {s t : State} (r : RouteNo) (hf : t.faults = s.faults) (hc : t.clock = s.clock) :
    unknownFaults r t = unknownFaults r s := by
  unfold unknownFaults
  rw [hf, hc]

/-- Settles O34: the deletion empties the route, then its condition goes to UNKNOWN, then its entries leave one after
another. -/
theorem deleteRouteRules : Obligations.DeleteRouteRules := by
  intro c tag s hready hc
  refine ⟨fun n rev hn => exec_deleteRoute hready hc (ownDeleteRoute_noNumber c rev s hn), fun r => ⟨fun rev hb => ?_,
    fun b hb => ⟨fun rev hrev => ?_, fun hrun => ?_, fun hq hwaits => ?_⟩⟩⟩
  · exact exec_deleteRoute hready hc ((ownDeleteRoute_eq c r rev s).trans (if_pos (routeStatus_eq_unused_iff.mpr hb)))
  · exact exec_deleteRoute hready hc ((ownDeleteRoute_defined c rev hb).trans (if_pos hrev))
  · exact exec_deleteRoute hready hc ((ownDeleteRoute_current c hb).trans (if_pos (routeRunning_iff.mpr hrun)))
  · have hfree : ¬routeRunning s r = true := by
      rw [routeRunning_eq_false_iff.mpr hwaits]
      decide
    have hanswer := exec_deleteRoute (tag := tag) hready hc ((ownDeleteRoute_current c hb).trans (if_neg hfree))
    have hgone : s.queue.entries.filter (fun e => isWaiting e && decide (e.route = r))
        = s.queue.entries.filter fun e => decide (e.route = r) :=
      List.filter_congr fun e he => by
        by_cases hr : e.route = r
        · simp [hwaits e he hr]
        · simp [hr]
    obtain ⟨hstate, hlogU, hnoticesU⟩ := setUnknown_state r c (unroutedState c r s)
    have hqueue : (setUnknown r c (unroutedState c r s)).queue = s.queue := by rw [hstate]; rfl
    have hclock : (setUnknown r c (unroutedState c r s)).clock = s.clock := by rw [hstate]; rfl
    have hframe := removeWaiting_queueOnly r (setUnknown r c (unroutedState c r s))
    have hremove : removeWaiting r (setUnknown r c (unroutedState c r s))
        = (s.queue.entries.filter fun e => decide (e.route = r)).foldl
          (fun s e => leaveQueue e .routeDeleted e.reqs none s) (setUnknown r c (unroutedState c r s)) := by
      unfold removeWaiting
      rw [hqueue, hgone]
    obtain ⟨hentries, hcounter, hmarks, hlog, hnotices⟩ := leaveAll_left _ _ _ _ hremove
    rw [acceptDeletion_removes] at hanswer
    generalize removeWaiting r (setUnknown r c (unroutedState c r s)) = t at hanswer hframe hentries hcounter hmarks hlog hnotices
    have hstore : t.store = (unroutedState c r s).store := hframe.store.trans (by rw [hstate])
    have hcond : (unroutedState c r s).faults[r].cond = s.faults[r].cond := rfl
    rw [hqueue] at hentries hcounter hmarks
    rw [hcond] at hlogU
    refine ⟨t, hanswer, ?_, ?_, ?_, hcounter, ?_⟩
    · have hwhole := hframe.eq
      rw [hstate, unknownFaults_of (s := s) (t := unroutedState c r s) r rfl rfl] at hwhole
      have hfreeList : t.store.free = (unroutedState c r s).store.free := by rw [hstore]
      rw [hfreeList]
      exact hwhole
    · intro k
      rw [hstore, ← mem_baselineBlocks hb]
      exact giveBack_mem _ _ k
    · rw [hentries, filter_ids hq.2.1]
      exact List.filter_congr fun e _ => by simp
    · rintro gone changes rfl rfl
      have hsame : (s.queue.entries.filter fun e => decide (e.route = r)).map
          (fun e => LogBody.testDone r e.id e.kind .routeDeleted e.reqs none)
          = (s.queue.entries.filter fun e => decide (e.route = r)).map
            (fun e => LogBody.testDone e.route e.id e.kind .routeDeleted e.reqs none) :=
        List.map_congr_left fun e he => by rw [of_decide_eq_true (List.mem_filter.mp he).2]
      refine ⟨hmarks, ?_, fun k => ?_⟩
      · unfold LoggedAt at hlog hlogU ⊢
        rw [hsame, hlog, hlogU, hclock, List.foldl_append]
        rfl
      · unfold LoggedAt at hlogU
        rw [hnotices k, hnoticesU k, hclock, hqueue, unroutedState_raises, hlogU, raisesOf_append, raisesOf_append, hcond]
        by_cases hu : s.faults[r].cond = .unknown
        · rw [if_pos hu, if_pos hu, if_pos hu]
          simp [logRaises]
          rfl
        · rw [if_neg hu, if_neg hu, if_neg hu]
          simp only [logRaises, List.append_nil, raisesOf_append]
          rfl

end Sys2Proof.Machine
end

section
/-!
HOLD, RELEASE and CLEAR_HOLDS, and the stop order of the first HOLD of the route under test (R77 to R79, R82, R112, R116).
-/
namespace Sys2Proof.Machine

/-- The route's hold set changed and the change logged, before its report (R77 to R79). -/
def heldState (c : Client) (r : RouteNo) (h : HoldSet) (s : State) : State :=
  logWrite (.holdChange r c h) (setRoute r { s.routes[r] with holds := h } s)

theorem changeHolds_eq (c : Client) (r : RouteNo) (h : HoldSet) (s : State) :
    changeHolds c r h s
      = if s.routes[r].holds = 0 ∨ h = 0 then routeReport (isClosed s) (heldState c r h s) else heldState c r h s := rfl

theorem changeHolds_reported {c : Client} {r : RouteNo} {h : HoldSet} {s : State} (hz : s.routes[r].holds = 0 ∨ h = 0) :
    changeHolds c r h s = routeReport (isClosed s) (heldState c r h s) := by
  rw [changeHolds_eq, if_pos hz]

/-- A change between two hold sets that are not empty, or while the engine is fixed, has no effect on the port. -/
theorem changeHolds_quiet {c : Client} {r : RouteNo} {h : HoldSet} {s : State}
    (hz : (s.routes[r].holds ≠ 0 ∧ h ≠ 0) ∨ EngineFixed s) : changeHolds c r h s = heldState c r h s := by
  rw [changeHolds_eq]
  rcases hz with ⟨hold, hnew⟩ | hfixed
  · exact if_neg (not_or.mpr ⟨hold, hnew⟩)
  · have hstate : EngineFixed (heldState c r h s) := hfixed
    rw [routeReport_of_fixed _ hstate, ite_self]

theorem bitOf_lt_four (c : Client) : bitOf c < 4 := by cases c <;> decide

theorem holds_add_ne_zero (h : HoldSet) (c : Client) : add h (bitOf c) ≠ 0 := fun hz => by
  have hhas := has_add h (bitOf c) (bitOf c) (bitOf_lt_four c)
  have hnone : has (0 : HoldSet) (bitOf c) = false := has_zero _
  rw [hz, hnone] at hhas
  simp at hhas

theorem ne_zero_of_has {h : HoldSet} {c : Client} (hh : has h (bitOf c) = true) : h ≠ 0 := fun hz => by
  have hnone : has (0 : HoldSet) (bitOf c) = false := has_zero _
  rw [hz, hnone] at hh
  cases hh

/-! ### The three requests -/

theorem exec_hold {c : Client} {tag : Byte} {n : Nat} {s t : State} {st : Status} {x : ReplyData}
    (h : Ready c s) (hc : c ≠ .ls) (ho : ownHold c n s = (t, st, x)) :
    exec (.hold c tag n) s = .next (replied c tag 0x0B st x t) :=
  request_answered (own := ownHold c n) h (permitted_of_ne_ls hc rfl) ho

theorem exec_release {c : Client} {tag : Byte} {n : Nat} {s t : State} {st : Status} {x : ReplyData}
    (h : Ready c s) (hc : c ≠ .ls) (ho : ownRelease c n s = (t, st, x)) :
    exec (.release c tag n) s = .next (replied c tag 0x0C st x t) :=
  request_answered (own := ownRelease c n) h (permitted_of_ne_ls hc rfl) ho

theorem exec_clearHolds {c : Client} {tag : Byte} {n : Nat} {s t : State} {st : Status} {x : ReplyData}
    (h : Ready c s) (hc : c = .cr) (ho : ownClearHolds c n s = (t, st, x)) :
    exec (.clearHolds c tag n) s = .next (replied c tag 0x0D st x t) :=
  request_answered (own := ownClearHolds c n) h (by rw [hc]; rfl) ho

section
variable (c : Client) (r : RouteNo) (s : State)

theorem ownHold_eq : ownHold c r s
    = if has s.routes[r].holds (bitOf c) then (s, .ok, .holds s.routes[r].holds)
      else (changeHolds c r (add s.routes[r].holds (bitOf c)) s, .ok, .holds (add s.routes[r].holds (bitOf c))) := by
  unfold ownHold
  rw [routeOf_val]

theorem ownRelease_eq : ownRelease c r s
    = if !has s.routes[r].holds (bitOf c) then (s, .notHeld, .holds s.routes[r].holds)
      else (changeHolds c r (del s.routes[r].holds (bitOf c)) s, .ok, .holds (del s.routes[r].holds (bitOf c))) := by
  unfold ownRelease
  rw [routeOf_val]

theorem ownClearHolds_eq : ownClearHolds c r s
    = (if s.routes[r].holds = 0 then s else changeHolds c r 0 s, .ok, .none) := by
  unfold ownClearHolds
  rw [routeOf_val]

end

theorem hold_accepted {c : Client} {tag : Byte} {r : RouteNo} {s t : State} (hready : Ready c s) (hc : c ≠ .ls)
    (hhas : has s.routes[r].holds (bitOf c) = false) (ht : changeHolds c r (add s.routes[r].holds (bitOf c)) s = t) :
    exec (.hold c tag r) s = .next (replied c tag 0x0B .ok (.holds (add s.routes[r].holds (bitOf c))) t) :=
  exec_hold hready hc ((ownHold_eq c r s).trans ((if_neg (by rw [hhas]; decide)).trans (by rw [ht])))

theorem release_accepted {c : Client} {tag : Byte} {r : RouteNo} {s t : State} (hready : Ready c s) (hc : c ≠ .ls)
    (hhas : has s.routes[r].holds (bitOf c) = true) (ht : changeHolds c r (del s.routes[r].holds (bitOf c)) s = t) :
    exec (.release c tag r) s = .next (replied c tag 0x0C .ok (.holds (del s.routes[r].holds (bitOf c))) t) :=
  exec_release hready hc ((ownRelease_eq c r s).trans ((if_neg (by rw [hhas]; decide)).trans (by rw [ht])))

theorem clearHolds_accepted {c : Client} {tag : Byte} {r : RouteNo} {s t : State} (hready : Ready c s) (hc : c = .cr)
    (hne : s.routes[r].holds ≠ 0) (ht : changeHolds c r 0 s = t) :
    exec (.clearHolds c tag r) s = .next (replied c tag 0x0D .ok .none t) :=
  exec_clearHolds hready hc ((ownClearHolds_eq c r s).trans (by rw [if_neg hne, ht]))

/-- Settles O35: a change of the hold set is one state, and its report is made where the set was or becomes empty. -/
theorem holdRequests : Obligations.HoldRequests := by
  intro c tag s hready hc
  refine ⟨fun n hn => ⟨exec_hold hready hc (by rw [ownHold, routeOf_large hn]),
    exec_release hready hc (by rw [ownRelease, routeOf_large hn]),
    fun hcr => exec_clearHolds hready hcr (by rw [ownClearHolds, routeOf_large hn])⟩, ?_⟩
  rintro r h rfl
  refine ⟨fun hhas => exec_hold hready hc ((ownHold_eq c r s).trans (if_pos hhas)),
    fun hhas => exec_release hready hc ((ownRelease_eq c r s).trans (if_pos (by rw [hhas]; rfl))),
    fun hcr hz => exec_clearHolds hready hcr ((ownClearHolds_eq c r s).trans (by rw [if_pos hz])), fun new => ?_⟩
  refine ⟨heldState c r new s, rfl, rfl, fun k => logWrite_raises _ _ k, ?_, ?_, ?_, ?_, ?_, ?_⟩
  · rintro hhas rfl hquiet
    exact hold_accepted hready hc hhas (changeHolds_quiet (hquiet.imp_left fun hne => ⟨hne, holds_add_ne_zero _ c⟩))
  · rintro hhas rfl hquiet
    exact release_accepted hready hc hhas (changeHolds_quiet (hquiet.imp_left fun hne => ⟨ne_zero_of_has hhas, hne⟩))
  · rintro hcr hne rfl hfixed
    exact clearHolds_accepted hready hcr hne (changeHolds_quiet (.inr hfixed))
  · rintro hhas rfl hz
    exact hold_accepted hready hc hhas (changeHolds_reported (.inl hz))
  · rintro hhas rfl hz
    exact release_accepted hready hc hhas (changeHolds_reported (.inr hz))
  · rintro hcr hne rfl
    exact clearHolds_accepted hready hcr hne (changeHolds_reported (.inr rfl))

/-! ### The first HOLD of the route under test (R82, R112, R113, R116) -/

/-- An entry of the queue after a stop order was there before, or is of the route of the stopped one. -/
theorem GivenUp.mem {e : Entry} {s t : State} (h : GivenUp e s t) (he : e ∈ s.queue.entries) (hw : isWaiting e = false)
    {x : Entry} (hx : x ∈ t.queue.entries) : x ∈ s.queue.entries ∨ x.route = e.route := by
  by_cases htwin : ∀ y ∈ s.queue.entries, isWaiting y = true → ¬(y.route = e.route ∧ y.kind = e.kind)
  · rw [(h.alone htwin).1] at hx
    obtain ⟨y, hy, rfl⟩ := List.mem_map.mp hx
    by_cases hid : y.id = e.id
    · rw [if_pos hid]
      exact .inr rfl
    · rw [if_neg hid]
      exact .inl hy
  · push Not at htwin
    obtain ⟨y, hy, hyw, hyr, hyk⟩ := htwin
    obtain ⟨a, b, pre, mid, post, hsplit, hab⟩ := split_two he hy fun heq => by
      rw [heq, hyw] at hw
      cases hw
    obtain ⟨hone, hroute, hkind⟩ := twin_pair hab hyw hyr hyk
    rw [(h.merged hsplit hone hroute hkind).1] at hx
    rw [hsplit]
    simp only [List.append_assoc, List.cons_append, List.mem_append, List.mem_cons] at hx ⊢
    rcases hx with hx | rfl | hx | hx
    · exact .inl (.inl hx)
    · exact .inr rfl
    · exact .inl (.inr (.inr (.inl hx)))
    · exact .inl (.inr (.inr (.inr (.inr hx))))

/-- Another route is as open and as covered as before a change of the hold set. -/
theorem heldState_eligible {c : Client} {r : RouteNo} {h : HoldSet} {s : State} {x : Entry} (hx : x.route ≠ r) :
    isEligible (heldState c r h s) x = isEligible s x := by
  have hroute : (heldState c r h s).routes[x.route] = s.routes[x.route] := getFin_set_ne _ _ hx
  unfold isEligible mayRun isClosed isHeld
  rw [hroute]
  rfl

theorem heldState_closed {c : Client} {r : RouteNo} {h : HoldSet} {s : State} (hne : h ≠ 0) :
    isClosed (heldState c r h s) r = true := by
  have hroute : (heldState c r h s).routes[r] = { s.routes[r] with holds := h } := getFin_set_same _ _ _
  rw [isClosed_iff, hroute]
  exact .inl hne

/-- Settles O36: the report of the HOLD sends the stop order, and what stands in the queue after it is not eligible. -/
theorem holdStopsTheRunningTest : Obligations.HoldStopsTheRunningTest := by
  rintro c tag r e s hready hc hq hrun hholds hbarred hstop he hwaits rfl hnone entries marks halone htwins
  obtain ⟨run, hruns⟩ := hrun.runs_of_mem he hwaits
  have hhas : has s.routes[e.route].holds (bitOf c) = false := by rw [hholds]; exact has_zero _
  have hopen : isClosed s e.route = false := by
    rw [← Bool.not_eq_true, isClosed_iff, ← inBarred_iff, hbarred]
    simpa using hholds
  have hanswer := hold_accepted (tag := tag) hready hc hhas (changeHolds_reported (.inl hholds))
  rw [hholds] at hanswer
  have hclosed := heldState_closed (c := c) (r := e.route) (s := s) (holds_add_ne_zero 0 c)
  have hsame : ∀ x : Entry, x.route ≠ e.route → isEligible (heldState c e.route (add 0 (bitOf c)) s) x = isEligible s x :=
    fun x hx => heldState_eligible hx
  have hstate : heldState c e.route (add 0 (bitOf c)) s = { s with
      routes := s.routes.set e.route { s.routes[e.route] with holds := add 0 (bitOf c) }
      log := (heldState c e.route (add 0 (bitOf c)) s).log
      notices := (heldState c e.route (add 0 (bitOf c)) s).notices } := rfl
  have hlog : LoggedAt s.clock.now s (heldState c e.route (add 0 (bitOf c)) s) [.holdChange e.route c (add 0 (bitOf c))] := rfl
  have hnotices : ∀ k, perGet (heldState c e.route (add 0 (bitOf c)) s).notices k
      = raisesOf (logRaise s.log k) (perGet s.notices k) := fun k => logWrite_raises _ _ k
  generalize heldState c e.route (add 0 (bitOf c)) s = u at hanswer hclosed hsame hstate hlog hnotices
  have hqueue : u.queue = s.queue := by rw [hstate]
  have hengine : u.engine = s.engine := by rw [hstate]
  have hlaw : QueueLaw u := by
    unfold QueueLaw
    rw [hqueue]
    exact hq
  have hrunsU : Runs u run e := hruns.of_entries hengine (by rw [hqueue]; exact he) fun x hx _ => by rwa [hqueue] at hx
  have hstopU : canStop u.engine.state = true := by rw [hengine]; exact hstop
  have hgiven := stopRunning_givenUp hlaw hrunsU hstopU
  have hidle : (stopRunning u).engine.state = .idle := by
    rw [(stopRunning_engine hrunsU hstopU).1]
    rfl
  have hreport : routeReport (isClosed s) u = handOut (stopRunning u) := by
    have hstops : routeStop (isClosed s) u = stopRunning u := by
      unfold routeStop
      rw [hrunsU.found]
      exact if_pos (by rw [hclosed, hopen]; rfl)
    rw [routeReport_eq, hstops, arbitrate, preempt_of_fixed (canStop_of_idle hidle).1]
  rw [hreport] at hanswer
  generalize stopRunning u = v at hanswer hgiven hidle
  have hnothing : handOut v = v := handOut_of_none (List.find?_eq_none.mpr fun x hx => by
    rw [hgiven.eligible]
    by_cases hxr : x.route = e.route
    · intro helig
      have := open_of_eligible helig
      rw [hxr, hclosed] at this
      cases this
    · rcases hgiven.mem hrunsU.mem hwaits hx with hmem | hmem
      · rw [hqueue] at hmem
        rw [hsame x hxr, hnone x hmem hxr]
        decide
      · exact absurd hmem hxr)
  rw [hnothing] at hanswer
  obtain ⟨hv, hreturned, hcounter, hgone, hmerged⟩ := hgiven
  rw [hqueue] at hgone hmerged hcounter
  have hleft : v.queue.entries = entries ∧ v.queue.marks = marks := by
    by_cases htwin : ∀ x ∈ s.queue.entries, isWaiting x = true → ¬(x.route = e.route ∧ x.kind = e.kind)
    · obtain ⟨rfl, rfl⟩ := halone htwin
      exact hgone htwin
    · push Not at htwin
      obtain ⟨y, hy, hyw, hyr, hyk⟩ := htwin
      obtain ⟨a, b, pre, mid, post, hsplit, hab⟩ := split_two he hy fun heq => by
        rw [heq, hyw] at hwaits
        cases hwaits
      obtain ⟨hone, hroute, hkind⟩ := twin_pair hab hyw hyr hyk
      obtain ⟨rfl, rfl⟩ := htwins pre a mid b post hsplit hone hroute hkind
      exact hmerged pre a mid b post hsplit hone hroute hkind
  have hqueueV : v.queue = { entries := entries, counter := s.queue.counter, marks := marks } := by
    rw [← hleft.1, ← hleft.2, ← hcounter]
  refine ⟨v, hanswer, ?_, ?_, ?_, fun k => ?_⟩
  · have hlogV : v.log = u.log := by rw [hv]
    have hnoticesV : v.notices = u.notices := by rw [hv]
    rw [← hqueueV, hlogV, hnoticesV]
    refine hv.trans ?_
    rw [hengine]
    exact congrArg (fun w : State => { w with
      front := { w.front with laser := false, checking := false }, engine := engineFree .idle none s.engine
      queue := v.queue, store := v.store }) hstate
  · have hstore : u.store = s.store := by rw [hstate]
    unfold ReservationReturned at hreturned ⊢
    rwa [hstore] at hreturned
  · unfold LoggedAt at hlog ⊢
    rw [hv]
    exact hlog
  · rw [hv]
    exact hnotices k

end Sys2Proof.Machine
end

section
/-!
The finish of a test, whole: what has changed once the running entry has left the queue and the engine has taken its new state
(R16, R21, R56, R57, R119).
-/
namespace Sys2Proof.Machine

/-- A return of the reservation changes the store alone. -/
theorem returnReservation_only (s : State) : returnReservation s = { s with store := (returnReservation s).store } := by
  rcases returnReservation_eq s with h | ⟨r, -, -, h⟩ <;> rw [h]

theorem withError_only (err : Option EquipKind) (r : RouteNo) (s : State) :
    withError err r s = { s with
      equip := (withError err r s).equip, queue := (withError err r s).queue
      log := (withError err r s).log, notices := (withError err r s).notices } :=
  (withError_frame err r s).1.eq

section
variable {s : State} {run : Running} {e : Entry} (hq : QueueLaw s) (h : Runs s run e) (out : TestOutcome)
  (err : Option EquipKind) (held : Option HeldAnalysis) (j : Option Judgement)

/-- The state of a finish before the finish report. -/
theorem recordedState_only : recordedState run out err held j s = { s with
    equip := (recordedState run out err held j s).equip
    records := s.records.set run.route (some (finishRecord run s.engine.acq out s.clock.now held j))
    store := (returnReservation s).store, log := (recordedState run out err held j s).log
    notices := (recordedState run out err held j s).notices } := by
  have herror := withError_only err run.route (returnReservation s)
  have hqueue : (withError err run.route (returnReservation s)).queue = s.queue :=
    (withError_frame err run.route (returnReservation s)).2.trans (returnReservation_queue s)
  rw [hqueue] at herror
  have hreturn := returnReservation_only s
  unfold recordedState
  generalize withError err run.route (returnReservation s) = u at herror ⊢
  rw [hreturn] at herror
  exact congrArg (setRecord run.route (some (finishRecord run s.engine.acq out s.clock.now held j))) herror

/-- The equipment error of a finish, in the words of the statements. -/
theorem recordedState_error :
    (recordedState run out err held j s).equip = (match err with
        | none => s.equip
        | some k => some (recordAfter k (some run.route) s.clock.now s.equip))
      ∧ (recordedState run out err held j s).log = (err.toList.map fun k => LogBody.equipment k (some run.route)).foldl
          (fun l b => logAfterWrite s.clock.now b l) s.log
      ∧ ∀ d, perGet (recordedState run out err held j s).notices d
          = raisesOf (if err.isSome then logRaise s.log d ++ [.equip] else []) (perGet s.notices d) := by
  have herror := withError_eq err run.route (returnReservation s)
  rw [returnReservation_log, returnReservation_notices] at herror
  have hclock : (returnReservation s).clock = s.clock := (returnReservation_portOnly s).clock
  have hequip : (returnReservation s).equip = s.equip := (returnReservation_portOnly s).equip
  rw [hclock, hequip] at herror
  exact herror

theorem leftState_store : (leftState run out err held j s).store = (returnReservation s).store :=
  (leftState_stands run out err held j s).store

theorem leftState_returned : ReservationReturned s (leftState run out err held j s) := by
  unfold ReservationReturned
  rw [leftState_store]
  exact returnReservation_returned s

include hq h

/-- What has changed once the finished entry has left the queue. -/
theorem leftState_only : leftState run out err held j s = { s with
    equip := (leftState run out err held j s).equip, records := (leftState run out err held j s).records
    store := (leftState run out err held j s).store, queue := (leftState run out err held j s).queue
    log := (leftState run out err held j s).log, notices := (leftState run out err held j s).notices } := by
  have hrecorded := recordedState_only (s := s) (run := run) out err held j
  rw [leftState_eq hq h]
  have hleave := leaveQueue_queueOnly e out e.reqs none (recordedState run out err held j s)
  generalize leaveQueue e out e.reqs none (recordedState run out err held j s) = t at hleave ⊢
  generalize recordedState run out err held j s = u at hrecorded hleave
  have hequip := hleave.equip
  have hrecords := hleave.records
  have hstore := hleave.store
  rw [hequip, hrecords, hstore]
  exact hleave.eq.trans (by rw [hrecorded])

/-- The finish in the words of the statements: record, error, log, notices and marks. -/
theorem leftState_finished :
    Finished run e out err (finishRecord run s.engine.acq out s.clock.now held j) s (leftState run out err held j s) := by
  obtain ⟨hequip, hlog, hnotices⟩ := recordedState_error (s := s) (run := run) out err held j
  have hrecorded := recordedState_only (s := s) (run := run) out err held j
  have hclock : (recordedState run out err held j s).clock = s.clock := (congrArg State.clock hrecorded).trans rfl
  have hrecords := congrArg State.records hrecorded
  have hqueue : (recordedState run out err held j s).queue = s.queue := (congrArg State.queue hrecorded).trans rfl
  have hleave := leaveQueue_queueOnly e out e.reqs none (recordedState run out err held j s)
  obtain ⟨hentries, hcounter, hlogged⟩ := leaveQueue_queue e out e.reqs none (recordedState run out err held j s)
  have hmarks := leaveQueue_marks e out e.reqs none (recordedState run out err held j s)
  have hraises := leaveQueue_notices e out e.reqs none (recordedState run out err held j s)
  rw [leftState_eq hq h]
  generalize recordedState run out err held j s = u at *
  rw [hqueue, h.id] at hentries
  rw [hclock, h.route, h.id, h.kind] at hlogged
  refine ⟨hentries, hcounter.trans (by rw [hqueue]), fun c => (hmarks c).trans (by rw [hqueue, h.id]),
    hleave.records.trans hrecords, hleave.equip.trans hequip, ?_, fun c => ?_⟩
  · unfold LoggedAt
    rw [hlogged, hlog, List.foldl_append]
    rfl
  · rw [hraises c, hnotices c, ← raisesOf_append, hlog]
    have hsame : markRaises e.id u c = markRaises run.id s c := by
      unfold markRaises
      rw [hqueue, h.id]
    rw [hsame]
    simp only [List.append_assoc]

end

/-- The Equipment Record after a finish (R21, R57). -/
theorem Finished.equip {run : Running} {e : Entry} {out : TestOutcome} {rec : TestRecord} {s t : State}
    (h : Finished run e out none rec s t) : t.equip = s.equip := by
  obtain ⟨-, -, -, -, hequip, -⟩ := h
  exact hequip

/-! ### The engine's new state (R16, R110) -/

/-- The hand-out does nothing where what stands in the queue was in the queue of a state with no eligible entry. -/
theorem handOut_of_noneEligible {s t : State} (h : NoneEligible s) (hsame : ∀ x, isEligible t x = isEligible s x)
    (hsub : ∀ x ∈ t.queue.entries, x ∈ s.queue.entries) : handOut t = t :=
  handOut_of_none (List.find?_eq_none.mpr fun x hx => by rw [hsame, h x (hsub x hx)]; decide)

/-- `t` is `s` with a finished test's entry gone and the engine free in state `st`. -/
def FreedAfter (st : EngineState) (s t : State) : Prop :=
  t = { s with
    engine := engineFree st none s.engine, equip := t.equip, records := t.records, store := t.store, queue := t.queue
    log := t.log, notices := t.notices }

theorem FreedAfter.handOut {st : EngineState} {s t : State} (h : FreedAfter st s t) {id : Nat}
    (hentries : t.queue.entries = s.queue.entries.filter fun x => x.id != id) (hcond : st ≠ .idle ∨ NoneEligible s) :
    handOut t = t := by
  rcases hcond with hst | hnone
  · refine handOut_of_not_idle ?_
    rw [h]
    exact hst
  · refine handOut_of_noneEligible hnone (fun x => ?_) fun x hx => ?_
    · rw [h]
      rfl
    · rw [hentries] at hx
      exact (List.mem_filter.mp hx).1

/-- A finish without a finding, its new state and the hand-out (R16). -/
theorem concludeIn_finish {s : State} {run : Running} {e : Entry} (hq : QueueLaw s) (h : Runs s run e) (out : TestOutcome)
    (err : Option EquipKind) (held : Option HeldAnalysis) (st : EngineState) :
    ∃ t, concludeIn st (finishEntry out err held none s) = handOut t ∧ FreedAfter st s t
      ∧ Finished run e out err (finishRecord run s.engine.acq out s.clock.now held none) s t ∧ ReservationReturned s t
      ∧ t.store = (returnReservation s).store ∧ (st ≠ .idle ∨ NoneEligible s → handOut t = t) := by
  have honly := leftState_only hq h out err held none
  have hfinished := leftState_finished hq h out err held none
  have hreturned := leftState_returned (s := s) (run := run) out err held none
  have hstore := leftState_store (s := s) (run := run) out err held none
  have hfinish : finishEntry out err held none s = leftState run out err held none s := by
    rw [finishEntry_eq h.engine]
    cases held <;> rfl
  rw [concludeIn, hfinish]
  generalize leftState run out err held none s = u at *
  have hengine : u.engine = s.engine := (congrArg State.engine honly).trans rfl
  have hfreed : FreedAfter st s { u with engine := u.engine.freed st } := by
    unfold FreedAfter
    rw [hengine]
    exact congrArg (fun w : State => { w with engine := engineFree st none s.engine }) honly
  exact ⟨_, rfl, hfreed, hfinished, hreturned, hstore, fun hcond => hfreed.handOut hfinished.1 hcond⟩

end Sys2Proof.Machine
end

section
/-!
The end of an analysis: the trace and the fields it leaves, the finishes it brings and the first block write of a capture
(R13, R25, R26 to R28, R53 to R56, R89, R130).
-/
namespace Sys2Proof.Machine

/-! ### The trace and the fields -/

theorem satPositions_sorted (cells : List TraceCell) : (satPositions cells).Pairwise (· < ·) := by
  have hall : (cells.zipIdx.map Prod.snd).Pairwise (· < ·) := by
    rw [List.zipIdx_map_snd]
    exact List.pairwise_lt_range'
  exact hall.sublist (List.filter_sublist.map Prod.snd)

theorem mem_satPositions_iff {cells : List TraceCell} {i : Nat} :
    i ∈ satPositions cells ↔ ∃ h : i < cells.length, cells[i].sat = true := by
  simp only [satPositions, List.mem_map, List.mem_filter]
  constructor
  · rintro ⟨⟨c, k⟩, ⟨hmem, hsat⟩, rfl⟩
    obtain ⟨hk, hc⟩ := List.mem_zipIdx' hmem
    exact ⟨hk, hc ▸ hsat⟩
  · rintro ⟨h, hsat⟩
    exact ⟨(cells[i], i), ⟨List.mk_mem_zipIdx_iff_getElem?.mpr (List.getElem?_eq_getElem h), hsat⟩, rfl⟩

theorem satPositions_length (cells : List TraceCell) : (satPositions cells).length = (cells.filter TraceCell.sat).length := by
  have h : ∀ (l : List TraceCell) (n : Nat), ((l.zipIdx n).filter fun p => p.1.sat).length = (l.filter TraceCell.sat).length := by
    intro l
    induction l with
    | nil => exact fun _ => rfl
    | cons c l ih =>
      intro n
      rw [List.zipIdx_cons]
      cases hc : c.sat <;> simp [hc, ih (n + 1)]
  rw [satPositions, List.length_map]
  exact h cells 0

theorem analysisFields_eq (a : AcqSettings) (j : Judging) (cells : List TraceCell) {dz em : Nat}
    (hdz : dz = max j.dead (pulseSpan a.pulse a.spacing))
    (hem : em = measuredEnd dz j.width j.floor (cells.map TraceCell.level)) :
    analysisFields a j cells =
      { dzEff := dz, width := j.width, em := em, dEm := distance a.spacing a.index em
        satCount := (cells.filter TraceCell.sat).length, firstSat := (satPositions cells).head? } := by
  subst hem hdz
  rw [← satPositions_length]
  rfl

/-! ### The event (R13) -/

/-- The trace HELD and the fields noted, the running entry stands. -/
theorem Runs.holdTrace {s : State} {run : Running} {e : Entry} (h : Runs s run e) (f : AnalysisFields)
    (cells : List TraceCell) : Runs (holdTrace run f cells s) run e :=
  ⟨h.engine, h.mem, h.only, h.found, h.id, h.route, h.kind, h.cls, h.acq⟩

section
variable {s : State} {run : Running} {a : AnalysisCopy} {cells : List TraceCell} {fields : AnalysisFields}
  (hst : s.engine.state = .analysing) (hrun : s.engine.running = some run) (ha : s.engine.analysis = some a)
  (hcells : cells = traceCells (2 ^ run.settings.shots) s.engine.acc)
  (hfields : fields = analysisFields run.settings a.judging cells)
include hst hrun ha hcells hfields

theorem exec_analysis_noBaseline (hkind : run.kind = .check) (hbase : a.base = none) :
    exec .analysisComplete s = .next (concludeIn (stateAfterStage s)
      (finishEntry .noBaseline none (some { fields := fields, time := s.clock.now }) none (holdTrace run fields cells s))) := by
  show execAnalysisComplete s = _
  unfold execAnalysisComplete
  rw [if_pos hst, hrun, ha]
  dsimp only
  rw [hkind, hbase, hfields, hcells]
  rfl

theorem exec_analysis_judged (hkind : run.kind = .check) {base : BaseRef} (hbase : a.base = some base) :
    exec .analysisComplete s = .next (concludeIn (stateAfterStage s)
      (finishEntry .judged none (some { fields := fields, time := s.clock.now })
        (some (judge run.settings a.judging fields.dzEff fields.em cells
          (base.blocks.flatMap (readBlock s.store.mem)) base.eb)) (holdTrace run fields cells s))) := by
  show execAnalysisComplete s = _
  unfold execAnalysisComplete
  rw [if_pos hst, hrun, ha]
  dsimp only
  rw [hkind, hbase, hfields, hcells]
  rfl

theorem exec_analysis_noFibre (hkind : run.kind = .capture) (hem : fields.em < fields.dzEff + 2 * a.judging.width) :
    exec .analysisComplete s = .next (concludeIn (stateAfterStage s)
      (finishEntry .noFibre none (some { fields := fields, time := s.clock.now }) none (holdTrace run fields cells s))) := by
  subst hfields hcells
  show execAnalysisComplete s = _
  unfold execAnalysisComplete
  rw [if_pos hst, hrun, ha]
  dsimp only
  rw [hkind]
  dsimp only
  exact congrArg Host.Outcome.next (if_pos hem)

theorem exec_analysis_writes (hkind : run.kind = .capture) (hem : fields.dzEff + 2 * a.judging.width ≤ fields.em) :
    exec .analysisComplete s = .next (startWrite 0 { holdTrace run fields cells s with
      engine := { (holdTrace run fields cells s).engine with state := .committing } }) := by
  subst hfields hcells
  show execAnalysisComplete s = _
  unfold execAnalysisComplete
  rw [if_pos hst, hrun, ha]
  dsimp only
  rw [hkind]
  dsimp only
  exact congrArg Host.Outcome.next (if_neg (Nat.not_lt.mpr hem))

end

/-! ### The finding of a JUDGED CHECK (R55, R130) -/

/-- A finding that agrees with the adopted condition refreshes the fault record (R130). -/
theorem takeFinding_agreeing {f : Finding} {s : State} {b : RouteBody} (hb : s.routes[f.route].body = some b)
    (hbase : b.baseline ≠ none) (hcond : f.judgement.cond = s.faults[f.route].cond) :
    takeFinding f s = setFault f.route (refreshed f s.faults[f.route]) (setCand f.route none s) := by
  obtain ⟨x, hx⟩ := Option.ne_none_iff_exists'.mp hbase
  unfold takeFinding
  rw [hb]
  dsimp only
  rw [hx]
  exact if_pos hcond

/-- Giving a finding leaves the engine, so its new state is that of the state before. -/
theorem takeFinding_concluded {f : Finding} {u : State} {st : EngineState} {eng : Engine} (h : EngineFixed u)
    (hacq : u.engine.acq = eng.acq) :
    concludeIn st (takeFinding f u) = handOut { takeFinding f u with engine := engineFree st none eng } := by
  unfold concludeIn
  rw [(takeFinding_of_fixed f h).engine, Engine.freed, hacq]
  rfl

theorem stateAfterStage_ne_idle {s : State} (h : s.engine.marker = true) : stateAfterStage s ≠ .idle := by
  rw [stateAfterStage, h]
  decide

section
variable {s : State} {run : Running} {e : Entry} {fields : AnalysisFields} {cells : List TraceCell} {j : Judgement}
  (hq : QueueLaw s) (h : Runs s run e)
include hq h

/-- The finish of a JUDGED CHECK up to its finding: the entry has left the queue (R16, R55). -/
theorem judged_left :
    ∃ u, finishEntry .judged none (some { fields := fields, time := s.clock.now }) (some j) (holdTrace run fields cells s)
        = takeFinding { route := run.route, id := run.id, acq := s.engine.acq, cls := run.cls, time := s.clock.now
                        judgement := j } u
      ∧ u = { s with
          trace := .held { acq := s.engine.acq, route := run.route, kind := run.kind, settings := run.settings }
            fields.dzEff fields.em cells
          engine := { s.engine with acc := [], held := some { fields := fields, time := s.clock.now } }
          records := u.records, store := u.store, queue := u.queue, log := u.log, notices := u.notices }
      ∧ Finished run e .judged none
          { id := run.id, acq := s.engine.acq, kind := run.kind, cls := run.cls, time := s.clock.now
            outcome := .judged, len := run.settings.len, fields := some fields, judgement := some j } s u
      ∧ ReservationReturned s u := by
  have hruns := h.holdTrace fields cells
  have hlaw : QueueLaw (holdTrace run fields cells s) := hq
  have honly := leftState_only hlaw hruns .judged none (some { fields := fields, time := s.clock.now }) (some j)
  have hfinished := leftState_finished hlaw hruns .judged none (some { fields := fields, time := s.clock.now }) (some j)
  have hreturned := leftState_returned (s := holdTrace run fields cells s) (run := run) .judged none
    (some { fields := fields, time := s.clock.now }) (some j)
  have hfinish := finishEntry_eq hruns.engine .judged none (some { fields := fields, time := s.clock.now }) (some j)
  generalize leftState run .judged none (some { fields := fields, time := s.clock.now }) (some j)
    (holdTrace run fields cells s) = u at *
  have hequip : u.equip = s.equip := hfinished.equip
  rw [hequip] at honly
  exact ⟨u, hfinish, honly, hfinished, hreturned⟩

/-- A finish of an analysis with no finding (R53, R54, R56). -/
theorem unjudged_concluded (out : TestOutcome) :
    ∃ t, concludeIn (stateAfterStage s)
          (finishEntry out none (some { fields := fields, time := s.clock.now }) none (holdTrace run fields cells s)) = handOut t
      ∧ (s.engine.marker = true ∨ NoneEligible s → handOut t = t)
      ∧ t = { s with
          trace := .held { acq := s.engine.acq, route := run.route, kind := run.kind, settings := run.settings }
            fields.dzEff fields.em cells
          engine := engineFree (if s.engine.marker then .faulted else .idle) none s.engine
          records := t.records, store := t.store, queue := t.queue, log := t.log, notices := t.notices }
      ∧ Finished run e out none
          { id := run.id, acq := s.engine.acq, kind := run.kind, cls := run.cls, time := s.clock.now
            outcome := out, len := run.settings.len, fields := some fields, judgement := none } s t
      ∧ ReservationReturned s t := by
  have hlaw : QueueLaw (holdTrace run fields cells s) := hq
  obtain ⟨t, hconclude, hfreed, hfinished, hreturned, -, hhand⟩ := concludeIn_finish hlaw (h.holdTrace fields cells) out none
    (some { fields := fields, time := s.clock.now }) (stateAfterStage s)
  have hequip : t.equip = s.equip := hfinished.equip
  unfold FreedAfter at hfreed
  rw [hequip] at hfreed
  exact ⟨t, hconclude, fun hcond => hhand (hcond.imp stateAfterStage_ne_idle id), hfreed, hfinished, hreturned⟩

/-- A JUDGED CHECK whose condition is the adopted one (R55, R130). -/
theorem judged_agreeing {b : RouteBody} (hb : s.routes[run.route].body = some b) (hbase : b.baseline ≠ none)
    (hcond : j.cond = s.faults[run.route].cond) (hst : s.engine.state = .analysing) :
    ∃ t, concludeIn (stateAfterStage s)
          (finishEntry .judged none (some { fields := fields, time := s.clock.now }) (some j) (holdTrace run fields cells s))
          = handOut t
      ∧ (s.engine.marker = true ∨ NoneEligible s → handOut t = t)
      ∧ t = { s with
          trace := .held { acq := s.engine.acq, route := run.route, kind := run.kind, settings := run.settings }
            fields.dzEff fields.em cells
          engine := engineFree (if s.engine.marker then .faulted else .idle) none s.engine
          faults := s.faults.set run.route
            { s.faults[run.route] with
              agreeing := min 65535 (s.faults[run.route].agreeing + 1)
              events := some { events := j.events, more := j.more }
              excess := j.excess, latest := some s.engine.acq }
          cands := s.cands.set run.route none
          records := t.records, store := t.store, queue := t.queue, log := t.log, notices := t.notices }
      ∧ Finished run e .judged none
          { id := run.id, acq := s.engine.acq, kind := run.kind, cls := run.cls, time := s.clock.now
            outcome := .judged, len := run.settings.len, fields := some fields, judgement := some j } s t
      ∧ ReservationReturned s t := by
  obtain ⟨u, hfinish, hu, hfinished, hreturned⟩ := judged_left (fields := fields) (cells := cells) (j := j) hq h
  have hroutes : u.routes = s.routes := (congrArg State.routes hu).trans rfl
  have hfaults : u.faults = s.faults := (congrArg State.faults hu).trans rfl
  have hengine : u.engine = { s.engine with acc := [], held := some { fields := fields, time := s.clock.now } } :=
    (congrArg State.engine hu).trans rfl
  have hfixed : EngineFixed u := by
    unfold EngineFixed
    rw [hengine, hst]
    decide
  have hconclude := takeFinding_concluded (st := stateAfterStage s) (eng := s.engine)
    (f := { route := run.route, id := run.id, acq := s.engine.acq, cls := run.cls, time := s.clock.now, judgement := j })
    hfixed (by rw [hengine])
  have hagree := takeFinding_agreeing (s := u) (b := b)
    (f := { route := run.route, id := run.id, acq := s.engine.acq, cls := run.cls, time := s.clock.now, judgement := j })
    (by rw [hroutes]; exact hb) hbase (by rw [hfaults]; exact hcond)
  rw [hfaults] at hagree
  rw [hagree] at hconclude
  rw [hfinish, hagree]
  refine ⟨_, hconclude, fun hmarker => ?_, ?_, hfinished, hreturned⟩
  · rcases hmarker with hm | hnone
    · exact handOut_of_not_idle (stateAfterStage_ne_idle hm)
    · refine handOut_of_noneEligible hnone (fun x => ?_) fun x hx => ?_
      · rw [hu]
        rfl
      · have hx : x ∈ u.queue.entries := hx
        rw [hfinished.1] at hx
        exact (List.mem_filter.mp hx).1
  · exact congrArg (fun w : State => { setFault run.route (refreshed { route := run.route, id := run.id, acq := s.engine.acq
                                                                       cls := run.cls, time := s.clock.now, judgement := j }
        s.faults[run.route]) (setCand run.route none w) with
      engine := engineFree (stateAfterStage s) none s.engine }) hu

end

/-- Settles O48: each outcome of the analysis is one finish, and the finding of a JUDGED CHECK is taken after the entry has left
the queue. -/
theorem analysesEnd : Obligations.AnalysesEnd := by
  refine ⟨fun n acc => ⟨List.length_map _, fun i h h' => List.getElem_map _⟩,
    fun cells => ⟨satPositions_sorted cells, fun i => mem_satPositions_iff⟩,
    fun a j cells dz em hdz hem => analysisFields_eq a j cells hdz hem, fun s => ⟨fun hst => ?_, ?_⟩⟩
  · show execAnalysisComplete s = _
    exact if_neg hst
  · rintro run a cells fields trace hst hrun ha hcells hfields rfl
    have running (hq : QueueLaw s) (hlaw : RunLaw s) : ∃ e, Runs s run e := by
      obtain ⟨run', e, hruns⟩ := hlaw.runs (by rw [hst]; rfl)
      obtain rfl : run' = run := Option.some.inj (hruns.engine.symm.trans hrun)
      exact ⟨e, hruns⟩
    refine ⟨fun hq hlaw out jd hnone hcapture hjudged hagree => ?_, fun hq hlaw base f hkind hbase hf => ?_,
      fun hkind hem => exec_analysis_writes hst hrun ha hcells hfields hkind hem⟩
    · obtain ⟨e, hruns⟩ := running hq hlaw
      refine ⟨e, hruns.mem, hruns.id, ?_⟩
      cases hkind : run.kind with
      | check =>
        cases hbase : a.base with
        | none =>
          obtain ⟨rfl, rfl⟩ := hnone hkind hbase
          rw [exec_analysis_noBaseline hst hrun ha hcells hfields hkind hbase]
          obtain ⟨t, ht, hrest⟩ := unjudged_concluded (fields := fields) (cells := cells) hq hruns .noBaseline
          rw [hkind] at hrest
          exact ⟨t, congrArg Host.Outcome.next ht, hrest⟩
        | some base =>
          obtain ⟨rfl, rfl⟩ := hjudged base hkind hbase
          obtain ⟨hcond, b, hb, hbl⟩ := hagree _ rfl
          rw [exec_analysis_judged hst hrun ha hcells hfields hkind hbase]
          obtain ⟨t, ht, hrest⟩ := judged_agreeing (fields := fields) (cells := cells) hq hruns hb hbl hcond hst
          rw [hkind] at hrest
          exact ⟨t, congrArg Host.Outcome.next ht, hrest⟩
      | capture =>
        obtain ⟨rfl, rfl, hem⟩ := hcapture hkind
        rw [exec_analysis_noFibre hst hrun ha hcells hfields hkind hem]
        obtain ⟨t, ht, hrest⟩ := unjudged_concluded (fields := fields) (cells := cells) hq hruns .noFibre
        rw [hkind] at hrest
        exact ⟨t, congrArg Host.Outcome.next ht, hrest⟩
    · obtain ⟨e, hruns⟩ := running hq hlaw
      subst hf
      obtain ⟨u, hfinish, hu, hfinished, hreturned⟩ := judged_left (fields := fields) (cells := cells)
        (j := judge run.settings a.judging fields.dzEff fields.em cells (base.blocks.flatMap (readBlock s.store.mem)) base.eb)
        hq hruns
      have hengine : u.engine = { s.engine with acc := [], held := some { fields := fields, time := s.clock.now } } :=
        (congrArg State.engine hu).trans rfl
      have hfixed : EngineFixed u := by
        unfold EngineFixed
        rw [hengine, hst]
        decide
      have hconclude (st : EngineState) (f : Finding) : concludeIn st (takeFinding f u)
          = handOut { takeFinding f u with engine := engineFree st none s.engine } :=
        takeFinding_concluded hfixed (by rw [hengine])
      rw [exec_analysis_judged hst hrun ha hcells hfields hkind hbase, hfinish, hconclude]
      refine ⟨e, hruns.mem, hruns.id, u, hu, hfinished, hreturned, fun hm => ?_, fun hm => ?_⟩
      · rw [stateAfterStage, hm, if_pos rfl, handOut_of_not_idle (show EngineState.faulted ≠ .idle by decide)]
      · rw [stateAfterStage, hm]
        rfl

end Sys2Proof.Machine
end

section
/-!
Block writes of a capture: a good one that another follows, the last one with its commit, and a failed one (R14, R15, R56, R75,
R88 to R92, R133).
-/
namespace Sys2Proof.Machine

/-- A change of neither engine nor queue leaves the running entry. -/
theorem Runs.of_same {s t : State} {run : Running} {e : Entry} (h : Runs s run e) (hengine : t.engine = s.engine)
    (hqueue : t.queue = s.queue) : Runs t run e :=
  h.of_entries hengine (hqueue ▸ h.mem) fun _ hx _ => hqueue ▸ hx

theorem returnReservation_of_none {s : State} (h : s.store.resv = none) : returnReservation s = s := by
  unfold returnReservation
  rw [h]

/-! ### The commit (R75, R91, R133) -/

/-- What the commit of a capture changes, writes and raises at the Condition Tracker (R128, R133). -/
theorem captureClear_state (r : RouteNo) (id acq : Nat) (time : Time) (s : State) :
    captureClear r id acq time s = { s with
        faults := s.faults.set r (capturedRecord (some id) time acq), cands := s.cands.set r none
        log := (captureClear r id acq time s).log, notices := (captureClear r id acq time s).notices }
      ∧ LoggedAt s.clock.now s (captureClear r id acq time s)
          (if s.faults[r].cond = .clear then [] else [.faultChange r .clear (some (id, .capture)) none])
      ∧ ∀ k, perGet (captureClear r id acq time s).notices k
          = raisesOf (if s.faults[r].cond = .clear then [] else logRaise s.log k ++ [.fault r false])
              (perGet s.notices k) := by
  unfold LoggedAt
  rcases captureClear_cases r id acq time s with ⟨hc, h⟩ | ⟨hc, h⟩ <;> rw [h]
  · rw [if_pos hc]
    exact ⟨rfl, rfl, fun k => by rw [if_pos hc]; rfl⟩
  · rw [if_neg hc]
    refine ⟨rfl, rfl, fun k => ?_⟩
    rw [if_neg hc, reportChange, raiseAll, perGet_raiseTo, if_pos rfl, logWrite_raises, raisesOf_append]
    rfl

/-- The state after the commit of a capture of a defined route, before the finish (R91). -/
theorem commitCapture_state {run : Running} {r : Reservation} {h : HeldAnalysis} {s : State} {b : RouteBody}
    (hb : s.routes[run.route].body = some b) :
    commitCapture run r h s = { s with
        routes := s.routes.set run.route (committedEntry s.routes[run.route] b r h)
        faults := s.faults.set run.route (capturedRecord (some run.id) h.time r.acq)
        cands := s.cands.set run.route none
        store := { s.store with free := giveBack (baselineBlocks s.routes[run.route]) s.store.free, resv := none }
        log := (commitCapture run r h s).log, notices := (commitCapture run r h s).notices }
      ∧ LoggedAt s.clock.now s (commitCapture run r h s)
          (if s.faults[run.route].cond = .clear then []
            else [.faultChange run.route .clear (some (run.id, .capture)) none])
      ∧ ∀ k, perGet (commitCapture run r h s).notices k
          = raisesOf (if s.faults[run.route].cond = .clear then [] else logRaise s.log k ++ [.fault run.route false])
              (perGet s.notices k) := by
  rcases commitCapture_cases run r h s with ⟨hnone, -⟩ | ⟨b', hb', k⟩
  · rw [hnone] at hb
    cases hb
  · obtain rfl : b = b' := Option.some.inj (hb.symm.trans hb')
    rw [k]
    generalize giveBack (baselineBlocks s.routes[run.route]) s.store.free = free
    exact captureClear_state run.route run.id r.acq h.time
      { committedState run.route b r h s with store := { s.store with free := free, resv := none } }

/-- A commit leaves the hold sets as they are (R75). -/
theorem committed_holds {b : RouteBody} {r : Reservation} {h : HeldAnalysis} {s : State} (route x : RouteNo) :
    (s.routes.set route (committedEntry s.routes[route] b r h))[x].holds = s.routes[x].holds := by
  by_cases hx : x = route
  · subst hx
    rw [getFin_set_same]
    rfl
  · rw [getFin_set_ne _ _ hx]

/-! ### The events -/

section
variable {s : State} {r : Reservation} {w : Nat} {data : List Nat} {run : Running} {h : HeldAnalysis} {blk : Nat}
  (hresv : s.store.resv = some r) (hphase : r.phase = .writing w data) (hblk : r.blocks[w]? = some blk)
include hphase hblk

theorem writingBlock_of : writingBlock r = some (w, blk, data) :=
  writingBlock_eq_some.mpr ⟨hphase, by rw [List.getD_eq_getElem?_getD, hblk]; rfl⟩

include hresv

theorem exec_blockWriteGood (hst : s.engine.state = .committing) (hrun : s.engine.running = some run)
    (hheld : s.engine.held = some h) :
    exec .blockWriteGood s = .next (if w + 1 < r.blocks.length then startWrite (w + 1) (writeDone blk data s)
      else concludeIn (stateAfterStage s)
        (finishEntry .captured none (some h) none (commitCapture run r h (writeDone blk data s)))) := by
  show execBlockWriteGood s = _
  unfold execBlockWriteGood
  rw [hresv]
  dsimp only
  rw [writingBlock_of hphase hblk]
  dsimp only
  rw [if_pos hst, hrun, hheld]

theorem exec_blockWriteFailed (hst : s.engine.state = .committing) :
    exec .blockWriteFailed s = .next (concludeIn (stateAfterStage s)
      (finishEntry .storeError (some .storeWriteFail) s.engine.held none (writeLost r blk s))) := by
  show execBlockWriteFailed s = _
  unfold execBlockWriteFailed
  rw [hresv]
  dsimp only
  rw [writingBlock_of hphase hblk]
  dsimp only
  rw [if_pos hst]

end

/-- A failed write leaves the other blocks as they are. -/
theorem readBlock_writeLost {r : Reservation} {b k : Nat} {s : State} (h : k ≠ b) :
    readBlock (writeLost r b s).store.mem k = readBlock s.store.mem k := by
  unfold writeLost
  dsimp only
  rw [readBlock_writeBlock, if_neg h]

/-- Settles O49: a good write is the next one or the commit with its finish, a failed one the finish STORE_ERROR. -/
theorem blockWritesInCommitting : Obligations.BlockWritesInCommitting := by
  refine ⟨fun m a b data => readBlock_writeBlock a data m b, fun labels dz em cells => rfl, ?_⟩
  intro s r w data run h blk hresv hphase hblk hst hrun hheld
  have hgood := exec_blockWriteGood hresv hphase hblk hst hrun hheld
  have hfailed := exec_blockWriteFailed hresv hphase hblk hst
  refine ⟨fun hnext => ?_, fun hq hlaw => ?_⟩
  · rw [hgood, if_pos hnext]
    have hmap : (writeDone blk data s).store.resv = some r := hresv
    unfold startWrite
    rw [hmap]
    rfl
  · obtain ⟨run', e, hruns⟩ := hlaw.runs (by rw [hst]; rfl)
    obtain rfl : run' = run := Option.some.inj (hruns.engine.symm.trans hrun)
    refine ⟨fun b new hlast hb hnew => ⟨e, hruns.mem, hruns.id, ?_⟩, e, hruns.mem, hruns.id, ?_⟩
    · rw [if_neg (by omega)] at hgood
      obtain ⟨hstate, hlog, hnotices⟩ := commitCapture_state (r := r) (h := h) (s := writeDone blk data s) hb
      generalize commitCapture run' r h (writeDone blk data s) = c at hgood hstate hlog hnotices
      have hengine : c.engine = s.engine := (congrArg State.engine hstate).trans rfl
      have hqueue : c.queue = s.queue := (congrArg State.queue hstate).trans rfl
      have hclock : c.clock = s.clock := (congrArg State.clock hstate).trans rfl
      have hstoreC := congrArg State.store hstate
      have hrecords : c.records = s.records := (congrArg State.records hstate).trans rfl
      have hequip : c.equip = s.equip := (congrArg State.equip hstate).trans rfl
      have hlawC : QueueLaw c := hq.of_eq hqueue
      obtain ⟨t, hconclude, hfreed, hfinished, -, hstore, hhand⟩ := concludeIn_finish hlawC (hruns.of_same hengine hqueue)
        .captured none (some h) (stateAfterStage s)
      rw [hconclude] at hgood
      have hresvC : c.store.resv = none := congrArg Store.resv hstoreC
      rw [returnReservation_of_none hresvC, hstoreC] at hstore
      obtain ⟨hentries, hcounter, hmarks, hrecordsT, hequipT, hlogT, hnoticesT⟩ := hfinished
      rw [hqueue] at hentries hcounter hmarks
      rw [hrecords, hengine] at hrecordsT
      rw [hequip] at hequipT
      have hfreedS : t = _ := hfreed.trans (congrArg (fun u : State => { u with
        engine := engineFree (stateAfterStage s) none u.engine, equip := t.equip, records := t.records, store := t.store
        queue := t.queue, log := t.log, notices := t.notices }) hstate)
      have hfree : t.store.free = giveBack (baselineBlocks s.routes[run'.route]) s.store.free := congrArg Store.free hstore
      have hopen : SameOpen s c := ⟨fun x => by
        have hroutes : c.routes = s.routes.set run'.route (committedEntry s.routes[run'.route] b r h) :=
          (congrArg State.routes hstate).trans rfl
        have hdevice : c.device = s.device := (congrArg State.device hstate).trans rfl
        unfold isClosed isHeld isBarred
        rw [hroutes, hdevice, committed_holds], fun x => by rw [hstate]; rfl⟩
      refine ⟨t, hgood, fun hcond => hhand (hcond.imp stateAfterStage_ne_idle fun hnone x hx => ?_), ?_, ?_, hentries, hcounter,
        hmarks, ?_⟩
      · rw [hqueue] at hx
        rw [hopen.isEligible, hnone x hx]
      · rw [hfreedS, hrecordsT, hequipT, hstore, hnew]
        rfl
      · intro k
        rw [hfree, giveBack_mem, mem_baselineBlocks hb]
      · rintro changes rfl
        refine ⟨?_, fun k => ?_⟩
        · unfold LoggedAt at hlog hlogT ⊢
          rw [hlogT, hlog, hclock, List.foldl_append, List.foldl_append]
          rfl
        · have hmarksC : markRaises run'.id c k = markRaises run'.id s k := by
            unfold markRaises
            rw [hqueue]
          unfold LoggedAt at hlog
          rw [hnoticesT k, hnotices k, hmarksC, ← raisesOf_append, hlog]
          simp only [List.append_assoc]
          rfl
    · rw [hheld] at hfailed
      have hlawL : QueueLaw (writeLost r blk s) := hq
      obtain ⟨t, hconclude, hfreed, hfinished, -, hstore, hhand⟩ := concludeIn_finish hlawL
        (hruns.of_same (t := writeLost r blk s) rfl rfl) .storeError (some .storeWriteFail) (some h) (stateAfterStage s)
      rw [hconclude] at hfailed
      rw [returnReservation_of_none (s := writeLost r blk s) rfl] at hstore
      refine ⟨t, hfailed, fun hcond => hhand (hcond.imp stateAfterStage_ne_idle id), hfreed, hfinished, ?_, fun k => ?_,
        fun k => ?_, fun k hk => ?_⟩ <;> rw [hstore]
      · rfl
      · show k ∈ giveBack (r.blocks.filter (· != blk)) s.store.free ↔ _
        rw [giveBack_mem, List.mem_filter, bne_iff_ne]
      · exact mem_insertNumber blk s.store.bad k
      · exact readBlock_writeLost hk

end Sys2Proof.Machine
end

section
/-!
A window at the minute rollovers, and how long it stays open (R147, R148).
-/
namespace Sys2Proof.Machine

theorem windowAtRollover_disabled {t : Time} {w : Window} (h : w.settings.enabled = false) : windowAtRollover t w = w :=
  if_pos (by rw [h]; rfl)

section
variable (t : Time) {w : Window} (he : w.settings.enabled = true)
include he

theorem windowAtRollover_closed (hr : w.remaining = none) :
    windowAtRollover t w = { w with remaining := if opensAt w.settings t then some w.settings.duration else none } := by
  unfold windowAtRollover
  rw [he, hr]
  cases opensAt w.settings t with
  | true => rfl
  | false => exact congrArg (fun r => { w with remaining := r }) hr

theorem windowAtRollover_counts {n : Nat} (hr : w.remaining = some n) (hn : 2 ≤ n) :
    windowAtRollover t w = { w with remaining := some (n - 1) } := by
  unfold windowAtRollover
  rw [he, hr]
  exact if_pos (by omega : 1 ≤ n - 1)

theorem windowAtRollover_runsOut (hr : w.remaining = some 1) :
    windowAtRollover t w = { w with remaining := if opensAt w.settings t then some w.settings.duration else none } := by
  unfold windowAtRollover
  rw [he, hr]
  cases opensAt w.settings t <;> rfl

end

theorem windowAtRollover_settings (t : Time) (w : Window) : (windowAtRollover t w).settings = w.settings := by
  cases he : w.settings.enabled with
  | false => rw [windowAtRollover_disabled he]
  | true =>
    cases hr : w.remaining with
    | none => rw [windowAtRollover_closed t he hr]
    | some n =>
      unfold windowAtRollover
      rw [he, hr]
      dsimp only
      split
      · rfl
      · split
        · rfl
        · split <;> rfl

/-- A CLOSED window stays so while it matches at no rollover. -/
theorem rollovers_closed (ts : List Time) {w : Window} (he : w.settings.enabled = true) (hr : w.remaining = none)
    (hno : ∀ u ∈ ts, opensAt w.settings u = false) : (ts.foldl (fun v u => windowAtRollover u v) w).remaining = none := by
  induction ts generalizing w with
  | nil => exact hr
  | cons u ts ih =>
    have hnext := windowAtRollover_closed u he hr
    rw [hno u (by simp)] at hnext
    rw [List.foldl_cons, hnext]
    exact ih he rfl fun v hv => hno v (by simp [hv])

/-- An OPEN window with `n` minutes remaining stays open for fewer than `n` rollovers at which it does not match. -/
theorem rollovers_open (ts : List Time) {w : Window} {n : Nat} (he : w.settings.enabled = true) (hr : w.remaining = some n)
    (hn : 1 ≤ n) (hno : ∀ u ∈ ts, opensAt w.settings u = false) :
    (ts.foldl (fun v u => windowAtRollover u v) w).remaining ≠ none ↔ ts.length < n := by
  induction ts generalizing w n with
  | nil => exact iff_of_true (by rw [List.foldl_nil, hr]; exact Option.some_ne_none n) hn
  | cons u ts ih =>
    have hlater : ∀ v ∈ ts, opensAt w.settings v = false := fun v hv => hno v (by simp [hv])
    rw [List.foldl_cons, List.length_cons]
    rcases Nat.lt_or_ge n 2 with h1 | h2
    · obtain rfl : n = 1 := by omega
      have hnext := windowAtRollover_runsOut u he hr
      rw [hno u (by simp)] at hnext
      rw [hnext]
      have hclosed := rollovers_closed ts (w := { w with remaining := none }) he rfl hlater
      exact iff_of_false (fun h => h hclosed) (by omega)
    · rw [windowAtRollover_counts u he hr h2]
      exact (ih (w := { w with remaining := some (n - 1) }) he rfl (by omega) hlater).trans (by omega)

/-- Settles O54: each rollover of a window is one case of its definition, and the count falls by one at each. -/
theorem windowsAtARollover : Obligations.WindowsAtARollover := by
  refine ⟨fun t w => ⟨windowAtRollover_settings t w, windowAtRollover_disabled, fun he => ⟨fun hr => ?_, fun n hr =>
    ⟨fun hn => ?_, fun hn => ?_⟩⟩⟩, fun w t ts he hr hd hopens hno => ?_⟩
  · rw [windowAtRollover_closed t he hr]
  · rw [windowAtRollover_counts t he hr hn]
  · subst hn
    rw [windowAtRollover_runsOut t he hr]
  · rw [windowAtRollover_closed t he hr, hopens]
    exact rollovers_open ts (w := { w with remaining := some w.settings.duration }) he rfl hd hno

end Sys2Proof.Machine
end

section
/-!
The judgement of one test: its differences, its step sums, its condition and its excess (R44, R48, R51, R52).
-/
namespace Sys2Proof.Machine

/-! ### Windows of a list of values -/

/-- A window of the values of `f` on an interval. -/
theorem window_of_range {α : Type} (f : Nat → α) {n i w : Nat} (h : i + w ≤ n) :
    (((List.range n).map f).drop i).take w = (List.range w).map fun k => f (i + k) := by
  refine List.ext_getElem (by simp; omega) fun k hk hk' => ?_
  simp

/-- The difference at an index, in the words of the statements (R44). -/
def diffAt (cells : List TraceCell) (base : List Nat) (i : Nat) : Int :=
  difference (cells.getD i { level := 0, sat := false }) (base.getD i 0)

theorem diffAt_eq (cells : List TraceCell) (base : List Nat) (i : Nat) :
    diffAt cells base i = if (cells.getD i { level := 0, sat := false }).sat = true ∨ base.getD i 0 = 3610 then 0
      else (base.getD i 0 : Int) - ((cells.getD i { level := 0, sat := false }).level : Int) := by
  unfold diffAt difference
  simp only [Bool.or_eq_true, beq_iff_eq]

/-- The differences of the compared range are those at its indices (R44). -/
theorem differences_eq {dz c : Nat} {cells : List TraceCell} {base : List Nat} (hcells : c ≤ cells.length)
    (hbase : c ≤ base.length) :
    differences dz c cells base = (List.range (c - dz)).map fun k => diffAt cells base (dz + k) := by
  refine List.ext_getElem (by simp [differences]; omega) fun k hk hk' => ?_
  have hlt : dz + k < c := by
    simp only [List.length_map, List.length_range] at hk'
    omega
  have h1 : dz + k < cells.length := by omega
  have h2 : dz + k < base.length := by omega
  simp only [differences, diffAt, List.getElem_zipWith, List.getElem_drop, List.getElem_take, List.getElem_map,
    List.getElem_range, List.getD_eq_getElem?_getD, List.getElem?_eq_getElem h1, List.getElem?_eq_getElem h2, Option.getD_some]

/-- The mean of the last `w` differences (R51). -/
theorem excessOf_eq {dz c w : Nat} {cells : List TraceCell} {base : List Nat} (hcells : c ≤ cells.length)
    (hbase : c ≤ base.length) (hsearch : dz + 2 * w ≤ c) :
    excessOf w (differences dz c cells base)
      = ((List.range w).map fun k => diffAt cells base (c - w + k)).sum / (w : Int) := by
  have hlen : ((List.range (c - dz)).map fun k => diffAt cells base (dz + k)).length = c - dz := by simp
  have hwindow := window_of_range (fun k => diffAt cells base (dz + k)) (n := c - dz) (i := c - dz - w) (w := w) (by omega)
  rw [List.take_of_length_le (by simp; omega)] at hwindow
  rw [excessOf, differences_eq hcells hbase, hlen, hwindow]
  congr 3
  funext k
  congr 1
  omega

/-! ### The parts of a judgement -/

/-- The peaks of the runs of step sums, before the first 16 are kept (R49, R50). -/
def peaksOf (j : Judging) (dz em : Nat) (cells : List TraceCell) (base : List Nat) (eb : Nat) : List (Nat × Int) :=
  if dz + 2 * j.width ≤ min em eb then
    runPeaks ((j.width * j.tLoss : Nat) : Int) none (stepSums j.width (dz + j.width) (differences dz (min em eb) cells base))
  else []

section
variable {a : AcqSettings} {j : Judging} {dz em : Nat} {cells : List TraceCell} {base : List Nat} {eb : Nat}

theorem judge_events : (judge a j dz em cells base eb).events
    = ((peaksOf j dz em cells base eb).take 16).map (lossEvent a j.width) := by
  unfold judge peaksOf
  simp only [decide_eq_true_eq]

theorem judge_more : (judge a j dz em cells base eb).more = decide (16 < (peaksOf j dz em cells base eb).length) := by
  unfold judge peaksOf
  simp only [decide_eq_true_eq]

theorem judge_excess : (judge a j dz em cells base eb).excess
    = if dz + 2 * j.width ≤ min em eb then some (excessOf j.width (differences dz (min em eb) cells base)) else none := by
  unfold judge
  simp only [decide_eq_true_eq]

theorem judge_events_eq_nil_iff : (judge a j dz em cells base eb).events = [] ↔ peaksOf j dz em cells base eb = [] := by
  rw [judge_events, List.map_eq_nil_iff, List.take_eq_nil_iff]
  simp

/-- The condition by the first of the three findings that there is (R52). -/
theorem judge_cond : (judge a j dz em cells base eb).cond
    = if (judge a j dz em cells base eb).brk.isSome then .broken
      else if (judge a j dz em cells base eb).events ≠ [] then .bend
      else if (judge a j dz em cells base eb).excess.any (fun x => decide ((j.tTotal : Int) ≤ x)) then .degraded
      else .clear := by
  have hpeaks : (judge a j dz em cells base eb).events ≠ [] ↔ peaksOf j dz em cells base eb ≠ [] :=
    not_congr judge_events_eq_nil_iff
  simp only [hpeaks]
  unfold judge peaksOf
  simp only [decide_eq_true_eq]

end

/-- Which condition it is that the first of three findings decides. -/
theorem first_condition {p e x : Prop} [Decidable p] [Decidable e] [Decidable x] {c : Condition}
    (h : c = if p then .broken else if e then .bend else if x then .degraded else .clear) :
    (c = .broken ↔ p) ∧ (c = .bend ↔ ¬p ∧ e) ∧ (c = .degraded ↔ ¬p ∧ ¬e ∧ x) ∧ (c = .clear ↔ ¬p ∧ ¬e ∧ ¬x)
      ∧ c ≠ .unknown := by
  subst h
  by_cases hp : p
  · simp [hp]
  · by_cases he : e
    · simp [hp, he]
    · by_cases hx : x <;> simp [hp, he, hx]

/-- Settles O58: the condition is the first of the cases of R52, and the excess is a window of the differences. -/
theorem conditionOfOneTest : Obligations.ConditionOfOneTest := by
  rintro a j dz em cells base eb g rfl hw hcells hbase hem heb diff hdiff
  have hsame : diff = diffAt cells base := funext fun i => (hdiff i).trans (diffAt_eq cells base i).symm
  have hcond := judge_cond (a := a) (j := j) (dz := dz) (em := em) (cells := cells) (base := base) (eb := eb)
  have hexcess := judge_excess (a := a) (j := j) (dz := dz) (em := em) (cells := cells) (base := base) (eb := eb)
  have hshort : min em eb < dz + 2 * j.width →
      (judge a j dz em cells base eb).events = [] ∧ (judge a j dz em cells base eb).more = false := fun h => by
    have hnone : peaksOf j dz em cells base eb = [] := if_neg (Nat.not_le.mpr h)
    refine ⟨judge_events_eq_nil_iff.mpr hnone, ?_⟩
    rw [judge_more, hnone]
    decide
  generalize judge a j dz em cells base eb = g at hcond hexcess hshort ⊢
  have hany : g.excess.any (fun x => decide ((j.tTotal : Int) ≤ x)) = true ↔ ∃ x, g.excess = some x ∧ (j.tTotal : Int) ≤ x := by
    cases g.excess <;> simp
  have hnotAny : ¬g.excess.any (fun x => decide ((j.tTotal : Int) ≤ x)) = true ↔ ∀ x, g.excess = some x → x < (j.tTotal : Int) := by
    rw [hany]
    push Not
    rfl
  obtain ⟨hbroken, hbend, hdegraded, hclear, hknown⟩ := first_condition hcond
  have hbrk : g.brk.isSome = true ↔ g.brk ≠ none := Option.isSome_iff_ne_none
  rw [hbrk] at hbroken
  rw [hbrk, not_not] at hbend hdegraded hclear
  rw [hany, not_not] at hdegraded
  rw [hnotAny, not_not] at hclear
  refine ⟨hbroken, hbend, hdegraded, hclear, hknown, fun h => ⟨(hshort h).1, (hshort h).2, ?_⟩, fun h => ?_⟩
  · rw [hexcess, if_neg (Nat.not_le.mpr h)]
  · rw [hexcess, if_pos h, excessOf_eq (by omega) (by omega) h, hsame]

end Sys2Proof.Machine
end

section
/-!
The loss events of one test: the runs of step sums at or above the bar, their peaks, and the first 16 of them (R48 to R50).
-/
namespace Sys2Proof.Machine

/-! ### Step sums (R48) -/

/-- The values of `S` at `m` indices from `lo` on, each with its index. -/
def sumsFrom (S : Nat → Int) (lo m : Nat) : List (Nat × Int) := (List.range m).map fun k => (lo + k, S (lo + k))

theorem sumsFrom_succ (S : Nat → Int) (lo m : Nat) : sumsFrom S lo (m + 1) = (lo, S lo) :: sumsFrom S (lo + 1) m := by
  unfold sumsFrom
  rw [List.range_succ_eq_map, List.map_cons, List.map_map]
  congr 1
  refine List.map_congr_left fun k _ => ?_
  show (lo + (k + 1), S (lo + (k + 1))) = (lo + 1 + k, S (lo + 1 + k))
  rw [show lo + (k + 1) = lo + 1 + k by omega]

theorem stepSums_eq {w : Nat} (hw : 1 ≤ w) (i : Nat) (ds : List Int) :
    stepSums w i ds = (List.range (ds.length + 1 - 2 * w)).map fun k =>
      (i + k, ((ds.drop (k + w)).take w).sum - ((ds.drop k).take w).sum) := by
  induction ds generalizing i with
  | nil =>
    rw [List.length_nil, show 0 + 1 - 2 * w = 0 by omega]
    rfl
  | cons d ds ih =>
    unfold stepSums
    by_cases h : 2 * w ≤ (d :: ds).length
    · have hlen : ((d :: ds).take (2 * w)).length = 2 * w := by rw [List.length_take]; omega
      rw [List.length_cons] at h
      rw [if_pos hlen, ih (i + 1), List.length_cons, show ds.length + 1 + 1 - 2 * w = ds.length + 1 - 2 * w + 1 by omega,
        List.range_succ_eq_map, List.map_cons, List.map_map]
      congr 1
      · simp
      · refine List.map_congr_left fun k _ => ?_
        show (i + 1 + k, _) = (i + (k + 1), ((List.drop (k + 1 + w) (d :: ds)).take w).sum - _)
        rw [show k + 1 + w = k + w + 1 by omega, List.drop_succ_cons, List.drop_succ_cons, Nat.add_assoc, Nat.add_comm 1 k]
    · have hlen : ((d :: ds).take (2 * w)).length ≠ 2 * w := by rw [List.length_take]; omega
      rw [if_neg hlen, show (d :: ds).length + 1 - 2 * w = 0 by omega]
      rfl

/-! ### Runs of step sums at or above the bar (R49) -/

/-- A run of indices, from the first to the last, and the index of its peak. -/
structure RunBlock where
  first : Nat
  peak : Nat
  last : Nat

/-- Each index of the block is at or above the bar, and its peak is the first of its largest values. -/
structure RunBlock.Ok (S : Nat → Int) (bar : Int) (b : RunBlock) : Prop where
  first_le : b.first ≤ b.peak
  le_last : b.peak ≤ b.last
  above : ∀ i, b.first ≤ i → i ≤ b.last → bar ≤ S i
  largest : ∀ i, b.first ≤ i → i ≤ b.last → S i ≤ S b.peak
  earliest : ∀ i, b.first ≤ i → i < b.peak → S i < S b.peak

/-- The blocks are the runs of the indices from `lo` to below `hi`: in increasing order, with a gap after each, and every index at
or above the bar in one of them. -/
structure Covers (S : Nat → Int) (bar : Int) (lo hi : Nat) (blocks : List RunBlock) : Prop where
  ok : ∀ b ∈ blocks, b.Ok S bar
  within : ∀ b ∈ blocks, lo ≤ b.first ∧ b.last < hi
  gaps : blocks.Pairwise fun a b => a.last + 1 < b.first
  all : ∀ i, lo ≤ i → i < hi → bar ≤ S i → ∃ b ∈ blocks, b.first ≤ i ∧ i ≤ b.last

/-- The peak of a block with its step sum. -/
def RunBlock.top (S : Nat → Int) (b : RunBlock) : Nat × Int := (b.peak, S b.peak)

theorem Covers.empty (S : Nat → Int) (bar : Int) (lo : Nat) : Covers S bar lo lo [] where
  ok b hb := by cases hb
  within b hb := by cases hb
  gaps := List.Pairwise.nil
  all i h1 h2 := by omega

/-- An index below the bar before the first block. -/
theorem Covers.skip {S : Nat → Int} {bar : Int} {lo hi : Nat} {blocks : List RunBlock} (h : Covers S bar (lo + 1) hi blocks)
    (hlo : ¬bar ≤ S lo) : Covers S bar lo hi blocks where
  ok := h.ok
  within b hb := ⟨by have := (h.within b hb).1; omega, (h.within b hb).2⟩
  gaps := h.gaps
  all i h1 h2 hi := by
    rcases Nat.eq_or_lt_of_le h1 with rfl | hlt
    · exact absurd hi hlo
    · exact h.all i hlt h2 hi

/-- A block that ends before an index below the bar. -/
theorem Covers.cons {S : Nat → Int} {bar : Int} {lo hi : Nat} {blocks : List RunBlock} (h : Covers S bar (lo + 1) hi blocks)
    (hlo : ¬bar ≤ S lo) {b : RunBlock} (hb : b.Ok S bar) (hlast : b.last + 1 = lo) (hhi : lo ≤ hi) :
    Covers S bar b.first hi (b :: blocks) where
  ok x hx := by
    rcases List.mem_cons.mp hx with rfl | hx
    · exact hb
    · exact h.ok x hx
  within x hx := by
    have hle := hb.first_le.trans hb.le_last
    rcases List.mem_cons.mp hx with rfl | hx
    · omega
    · have := h.within x hx
      omega
  gaps := List.pairwise_cons.mpr ⟨fun x hx => by have := (h.within x hx).1; omega, h.gaps⟩
  all i h1 h2 hi := by
    rcases Nat.lt_or_ge i lo with hlt | hge
    · exact ⟨b, by simp, h1, by omega⟩
    · obtain ⟨x, hx, hin⟩ := (h.skip hlo).all i hge h2 hi
      exact ⟨x, by simp [hx], hin⟩

/-- An open run from `first` to just before `lo`, with its peak so far. -/
def OpenRun (S : Nat → Int) (bar : Int) (first j lo : Nat) : Prop := RunBlock.Ok S bar { first := first, peak := j, last := lo - 1 } ∧ 0 < lo

theorem OpenRun.extend {S : Nat → Int} {bar : Int} {first j lo : Nat} (h : OpenRun S bar first j lo) (hlo : bar ≤ S lo) :
    OpenRun S bar first (if S j < S lo then lo else j) (lo + 1) := by
  obtain ⟨⟨hfirst, hlast, habove, hlargest, hearliest⟩, hpos⟩ := h
  dsimp only at hfirst hlast habove hlargest hearliest
  have hwithin : ∀ i, i ≤ lo + 1 - 1 → i = lo ∨ i ≤ lo - 1 := fun i hi => by omega
  refine ⟨⟨?_, ?_, fun i h1 h2 => ?_, fun i h1 h2 => ?_, fun i h1 h2 => ?_⟩, Nat.succ_pos lo⟩ <;> dsimp only at *
  · split <;> omega
  · split <;> omega
  · rcases hwithin i h2 with rfl | hi
    · exact hlo
    · exact habove i h1 hi
  · rcases hwithin i h2 with rfl | hi
    · split <;> omega
    · have := hlargest i h1 hi
      split <;> omega
  · split at h2
    · rename_i hlt
      rw [if_pos hlt]
      have := hlargest i h1 (by omega)
      omega
    · rename_i hge
      rw [if_neg hge]
      exact hearliest i h1 h2

/-- The peaks that the scan gives are those of the runs, whether it begins outside a run or in one. -/
theorem runPeaks_covers (S : Nat → Int) (bar : Int) (m : Nat) :
    (∀ lo, ∃ blocks, runPeaks bar none (sumsFrom S lo m) = blocks.map (RunBlock.top S) ∧ Covers S bar lo (lo + m) blocks)
      ∧ ∀ first j lo, OpenRun S bar first j lo →
        ∃ blocks, runPeaks bar (some (j, S j)) (sumsFrom S lo m) = blocks.map (RunBlock.top S)
          ∧ Covers S bar first (lo + m) blocks := by
  induction m with
  | zero =>
    refine ⟨fun lo => ⟨[], rfl, .empty S bar lo⟩, fun first j lo h => ⟨[{ first := first, peak := j, last := lo - 1 }], rfl, ?_⟩⟩
    obtain ⟨hok, hpos⟩ := h
    refine ⟨fun b hb => List.mem_singleton.mp hb ▸ hok, fun b hb => ?_, List.pairwise_singleton _ _, fun i h1 h2 _ => ?_⟩
    · rw [List.mem_singleton.mp hb]
      dsimp only
      omega
    · exact ⟨_, List.mem_singleton.mpr rfl, h1, by dsimp only; omega⟩
  | succ m ih =>
    obtain ⟨ihClosed, ihOpen⟩ := ih
    refine ⟨fun lo => ?_, fun first j lo h => ?_⟩ <;> rw [sumsFrom_succ, runPeaks, show lo + (m + 1) = lo + 1 + m by omega]
    · by_cases hlo : bar ≤ S lo
      · rw [if_pos hlo]
        refine ihOpen lo lo (lo + 1) ⟨⟨le_rfl, by simp, ?_, ?_, ?_⟩, Nat.succ_pos lo⟩ <;> dsimp only <;> intro i h1 h2
        · obtain rfl : i = lo := by omega
          exact hlo
        · obtain rfl : i = lo := by omega
          exact le_rfl
        · omega
      · rw [if_neg hlo]
        obtain ⟨blocks, hpeaks, hcovers⟩ := ihClosed (lo + 1)
        exact ⟨blocks, hpeaks, hcovers.skip hlo⟩
    · by_cases hlo : bar ≤ S lo
      · rw [if_pos hlo]
        have hopen := ihOpen first _ (lo + 1) (h.extend hlo)
        have hcur : (if S j < S lo then (lo, S lo) else (j, S j))
            = ((if S j < S lo then lo else j), S (if S j < S lo then lo else j)) := by split <;> rfl
        rw [hcur]
        exact hopen
      · rw [if_neg hlo]
        obtain ⟨blocks, hpeaks, hcovers⟩ := ihClosed (lo + 1)
        obtain ⟨hok, hpos⟩ := h
        exact ⟨{ first := first, peak := j, last := lo - 1 } :: blocks, congrArg ((j, S j) :: ·) hpeaks,
          hcovers.cons hlo hok (by dsimp only; omega) (by omega)⟩

/-! ### Runs told by the indices alone -/

section
variable {S : Nat → Int} {bar : Int} {lo hi : Nat} {blocks : List RunBlock} (h : Covers S bar lo hi blocks)
include h

/-- The indices next to a block are in no block. -/
theorem Covers.apart {a b : RunBlock} (ha : a ∈ blocks) (hb : b ∈ blocks) {i : Nat} (hi : b.first ≤ i ∧ i ≤ b.last) :
    i ≠ a.last + 1 ∧ i + 1 ≠ a.first := by
  have hleA := (h.ok a ha).first_le.trans (h.ok a ha).le_last
  have hcases : a = b ∨ a.last + 1 < b.first ∨ b.last + 1 < a.first := by
    by_cases hab : a = b
    · exact .inl hab
    · obtain ⟨x, y, pre, mid, post, hsplit, hxy⟩ : ∃ x y pre mid post,
          blocks = pre ++ x :: mid ++ y :: post ∧ (x = a ∧ y = b ∨ x = b ∧ y = a) := by
        obtain ⟨l, m, rfl⟩ := List.append_of_mem ha
        rcases List.mem_append.mp hb with hb | hb
        · obtain ⟨l1, l2, rfl⟩ := List.append_of_mem hb
          exact ⟨b, a, l1, l2, m, by simp, .inr ⟨rfl, rfl⟩⟩
        · obtain ⟨m1, m2, rfl⟩ := List.append_of_mem ((List.mem_cons.mp hb).resolve_left (Ne.symm hab))
          exact ⟨a, b, l, m1, m2, by simp, .inl ⟨rfl, rfl⟩⟩
      have hgap := h.gaps
      rw [hsplit] at hgap
      have hlt := (List.pairwise_append.mp hgap).2.2 x (by simp) y (by simp)
      rcases hxy with ⟨rfl, rfl⟩ | ⟨rfl, rfl⟩
      · exact .inr (.inl hlt)
      · exact .inr (.inr hlt)
  rcases hcases with rfl | hlt | hlt <;> omega

variable {run : Nat → Prop} (hrun : ∀ i, run i ↔ (lo ≤ i ∧ i < hi) ∧ bar ≤ S i)
include hrun

theorem Covers.run_of_mem {b : RunBlock} (hb : b ∈ blocks) {i : Nat} (h1 : b.first ≤ i) (h2 : i ≤ b.last) : run i :=
  (hrun i).mpr ⟨by have := h.within b hb; omega, (h.ok b hb).above i h1 h2⟩

theorem Covers.block_of_run {i : Nat} (hi : run i) : ∃ b ∈ blocks, b.first ≤ i ∧ i ≤ b.last := by
  obtain ⟨⟨h1, h2⟩, habove⟩ := (hrun i).mp hi
  exact h.all i h1 h2 habove

theorem Covers.not_run_after {b : RunBlock} (hb : b ∈ blocks) : ¬run (b.last + 1) := fun hi => by
  obtain ⟨a, ha, hin⟩ := h.block_of_run hrun hi
  exact (h.apart hb ha hin).1 rfl

theorem Covers.not_run_before {b : RunBlock} (hb : b ∈ blocks) (hpos : 1 ≤ b.first) : ¬run (b.first - 1) := fun hi => by
  obtain ⟨a, ha, hin⟩ := h.block_of_run hrun hi
  exact (h.apart hb ha hin).2 (by omega)

/-- What a run connects to an index of a block lies in the block. -/
theorem Covers.connected {b : RunBlock} (hb : b ∈ blocks) {p i : Nat} (hp : b.first ≤ p ∧ p ≤ b.last)
    (hall : ∀ k, min i p ≤ k → k ≤ max i p → run k) : b.first ≤ i ∧ i ≤ b.last := by
  refine ⟨?_, ?_⟩ <;> by_contra hout
  · exact h.not_run_before hrun hb (by omega) (hall _ (by omega) (by omega))
  · exact h.not_run_after hrun hb (hall _ (by omega) (by omega))

theorem Covers.between {b : RunBlock} (hb : b ∈ blocks) {p i : Nat} (hp : b.first ≤ p ∧ p ≤ b.last)
    (hi : b.first ≤ i ∧ i ≤ b.last) : ∀ k, min i p ≤ k → k ≤ max i p → run k :=
  fun k h1 h2 => h.run_of_mem hrun hb (by omega) (by omega)

/-- The first indices of the runs are those of the blocks. -/
theorem Covers.starts (hlo : 1 ≤ lo) {starts : List Nat} (hsorted : starts.Pairwise (· < ·))
    (hmem : ∀ i, i ∈ starts ↔ run i ∧ ¬run (i - 1)) : starts = blocks.map RunBlock.first := by
  have hfirsts : (blocks.map RunBlock.first).Pairwise (· < ·) := by
    rw [List.pairwise_map]
    refine h.gaps.imp_of_mem fun {a b} ha _ hab => ?_
    have := (h.ok a ha).first_le.trans (h.ok a ha).le_last
    omega
  refine List.Perm.eq_of_pairwise (le := (· < ·)) (fun a b _ _ hab hba => absurd hab (by omega)) hsorted hfirsts ?_
  refine (List.perm_ext_iff_of_nodup (hsorted.imp fun h => by omega) (hfirsts.imp fun h => by omega)).mpr fun i => ?_
  rw [hmem, List.mem_map]
  constructor
  · rintro ⟨hi, hbefore⟩
    obtain ⟨b, hb, h1, h2⟩ := h.block_of_run hrun hi
    refine ⟨b, hb, ?_⟩
    by_contra hne
    exact hbefore (h.run_of_mem hrun hb (by omega) (by omega))
  · rintro ⟨b, hb, rfl⟩
    have hle := (h.ok b hb).first_le.trans (h.ok b hb).le_last
    have := (h.within b hb).1
    exact ⟨h.run_of_mem hrun hb le_rfl hle, h.not_run_before hrun hb (by omega)⟩

end

/-! ### The events (R49, R50) -/

/-- The step sum at an index, from the differences (R48). -/
def stepSumAt (diff : Nat → Int) (w i : Nat) : Int :=
  ((List.range w).map fun k => diff (i + k)).sum - ((List.range w).map fun k => diff (i - w + k)).sum

/-- The peaks of a judgement are those of the runs of the step sums at the searched indices. -/
theorem peaksOf_eq {j : Judging} {dz em : Nat} {cells : List TraceCell} {base : List Nat} {eb : Nat} (hw : 1 ≤ j.width)
    (hcells : min em eb ≤ cells.length) (hbase : min em eb ≤ base.length) :
    peaksOf j dz em cells base eb = runPeaks ((j.width * j.tLoss : Nat) : Int) none
      (sumsFrom (stepSumAt (diffAt cells base) j.width) (dz + j.width) (min em eb - dz + 1 - 2 * j.width)) := by
  unfold peaksOf
  split
  · congr 1
    have hlen : ((List.range (min em eb - dz)).map fun k => diffAt cells base (dz + k)).length = min em eb - dz := by simp
    rw [differences_eq hcells hbase, stepSums_eq hw, hlen]
    refine List.map_congr_left fun k hk => ?_
    rw [List.mem_range] at hk
    rw [window_of_range _ (by omega), window_of_range _ (by omega)]
    unfold stepSumAt
    congr 5
    · funext t
      congr 1
      omega
    · funext t
      congr 1
      omega
  · rw [show min em eb - dz + 1 - 2 * j.width = 0 by omega]
    rfl

theorem lossEvent_loss {a : AcqSettings} {w : Nat} {p : Nat × Int} (hp : 0 ≤ p.2) :
    ((lossEvent a w p).loss : Int) = (p.2 + ((w / 2 : Nat) : Int)) / (w : Int) := by
  unfold lossEvent
  exact Int.toNat_of_nonneg (Int.ediv_nonneg (by omega) (by omega))

/-- Settles O59: the events are the peaks of the first 16 runs. -/
theorem lossEventsOfATest : Obligations.LossEventsOfATest := by
  rintro a j dz em cells base eb g rfl hspacing hlow hhigh hw htloss hcells hbase hem heb diff stepSum bar searched run hdiff
    hstep rfl hsearched hrun
  have hdiffAt : diff = diffAt cells base := funext fun i => (hdiff i).trans (diffAt_eq cells base i).symm
  have hstepAt : stepSum = stepSumAt (diffAt cells base) j.width := funext fun i => by rw [hstep i, hdiffAt]; rfl
  have hpeaks := peaksOf_eq (j := j) (dz := dz) (em := em) (eb := eb) hw (by omega : min em eb ≤ cells.length)
    (by omega : min em eb ≤ base.length)
  have hevents := judge_events (a := a) (j := j) (dz := dz) (em := em) (cells := cells) (base := base) (eb := eb)
  have hmore := judge_more (a := a) (j := j) (dz := dz) (em := em) (cells := cells) (base := base) (eb := eb)
  generalize judge a j dz em cells base eb = g at hevents hmore ⊢
  rw [← hstepAt] at hpeaks
  obtain ⟨blocks, hblocks, hcovers⟩ := (runPeaks_covers stepSum ((j.width * j.tLoss : Nat) : Int)
    (min em eb - dz + 1 - 2 * j.width)).1 (dz + j.width)
  rw [hpeaks, hblocks, ← List.map_take, List.map_map] at hevents
  rw [hpeaks, hblocks, List.length_map] at hmore
  have hruns : ∀ i, run i ↔ (dz + j.width ≤ i ∧ i < dz + j.width + (min em eb - dz + 1 - 2 * j.width))
      ∧ ((j.width * j.tLoss : Nat) : Int) ≤ stepSum i := fun i => by
    rw [hrun, hsearched]
    exact and_congr_left fun _ => by omega
  have hevent : ∀ x ∈ g.events, ∃ b ∈ blocks, x = lossEvent a j.width (b.top stepSum) := fun x hx => by
    rw [hevents] at hx
    obtain ⟨b, hb, rfl⟩ := List.mem_map.mp hx
    exact ⟨b, List.mem_of_mem_take hb, rfl⟩
  have hpeakIn : ∀ b ∈ blocks, b.first ≤ b.peak ∧ b.peak ≤ b.last := fun b hb => ⟨(hcovers.ok b hb).first_le, (hcovers.ok b hb).le_last⟩
  refine ⟨fun x hx => ?_, fun hfew i hi => ?_, ?_, ?_, fun hm => ?_, fun starts hsorted hmem => ?_⟩
  · obtain ⟨b, hb, rfl⟩ := hevent x hx
    obtain ⟨h1, h2⟩ := hpeakIn b hb
    have hpeak : run b.peak := hcovers.run_of_mem hruns hb h1 h2
    have hnonneg : (0 : Int) ≤ stepSum b.peak := le_trans (Int.natCast_nonneg _) ((hruns b.peak).mp hpeak).2
    refine ⟨hpeak, rfl, lossEvent_loss hnonneg, fun i hi => ?_⟩
    obtain ⟨hf, hl⟩ := hcovers.connected hruns hb ⟨h1, h2⟩ hi
    exact ⟨(hcovers.ok b hb).largest i hf hl, fun hlt => (hcovers.ok b hb).earliest i hf hlt⟩
  · have hle : blocks.length ≤ 16 := by
      rw [hmore] at hfew
      simpa using hfew
    obtain ⟨b, hb, hin⟩ := hcovers.block_of_run hruns hi
    refine ⟨lossEvent a j.width (b.top stepSum), ?_, hcovers.between hruns hb (p := b.peak) (hpeakIn b hb) hin⟩
    rw [hevents, List.take_of_length_le hle]
    exact List.mem_map.mpr ⟨b, hb, rfl⟩
  · rw [hevents, List.pairwise_map]
    refine (hcovers.gaps.sublist (List.take_sublist 16 blocks)).imp_of_mem fun {b c} hb hc hgap => ?_
    have hb := hpeakIn b (List.mem_of_mem_take hb)
    have hc := hpeakIn c (List.mem_of_mem_take hc)
    exact distance_strictMono a.spacing (by omega) (by omega) (by omega : b.peak < c.peak)
  · rw [hevents, List.length_map, List.length_take]
    omega
  · rw [hmore, decide_eq_true_eq] at hm
    rw [hevents, List.length_map, List.length_take]
    omega
  · obtain rfl := hcovers.starts hruns (by omega) hsorted hmem
    refine ⟨by rw [hevents, List.length_map, List.length_take, List.length_map],
      by rw [hmore, decide_eq_true_eq, List.length_map], fun n hn hn' => ?_⟩
    have hlen : n < blocks.length := by simpa using hn'
    have hget : (g.events[n]).index = blocks[n].peak := by
      simp only [hevents, List.getElem_map, List.getElem_take]
      rfl
    have hb : blocks[n] ∈ blocks := List.getElem_mem hlen
    obtain ⟨h1, h2⟩ := hpeakIn _ hb
    rw [hget, List.getElem_map]
    exact ⟨h1, fun k hk1 hk2 => hcovers.run_of_mem hruns hb hk1 (by omega)⟩

end Sys2Proof.Machine
end

section
/-!
The Condition Tracker takes a finding, and the confirming CHECK it asks for (R121, R128 to R132).
-/
namespace Sys2Proof.Machine

theorem isRaise_eq (c : Condition) : isRaise c = decide (c ≠ .unknown ∧ c ≠ .clear) := by cases c <;> rfl

theorem agreeAfter_eq {c : Condition} {k : Option Candidate} {n : Nat}
    (hsame : ∀ x, k = some x → x.cond = c → n = x.agree + 1) (hother : (∀ x, k = some x → x.cond ≠ c) → n = 1) :
    agreeAfter c k = n := by
  cases k with
  | none => exact (hother fun _ hx => nomatch hx).symm
  | some x =>
    by_cases hc : x.cond = c
    · exact (if_pos hc).trans (hsame x rfl hc).symm
    · exact (if_neg hc).trans (hother fun y hy => by rwa [← Option.some.inj hy]).symm

/-- A request for a test of a closed route is dropped (R105, R121). -/
theorem askTest_closed {who : Nat} {r : RouteNo} {k : TestKind} {cls : TestClass} {s : State} (h : isClosed s r = true) :
    (askTest who r k cls s).2 = s := by
  rcases askTest_placed who r k cls s with hs | ⟨-, hopen, -⟩
  · exact hs
  · rw [hopen] at h
    cases h

section
variable {f : Finding} {s : State} {b : RouteBody} (hb : s.routes[f.route].body = some b) (hbase : b.baseline ≠ none)
  (hcond : f.judgement.cond ≠ s.faults[f.route].cond)
include hb hbase hcond

/-- A finding that reaches the confirm count is adopted (R131). -/
theorem takeFinding_adopts (hn : agreeAfter f.judgement.cond s.cands[f.route] = b.judging.confirm) :
    takeFinding f s = reportChange f.route f.judgement.cond (some (f.id, .check)) none
      (setFault f.route (adopted f) (setCand f.route none s)) := by
  obtain ⟨x, hx⟩ := Option.ne_none_iff_exists'.mp hbase
  unfold takeFinding
  rw [hb]
  dsimp only
  rw [hx]
  exact (if_neg hcond).trans (if_pos hn)

/-- A finding below the confirm count leaves a candidate and asks for a confirming CHECK (R131, R132). -/
theorem takeFinding_asks {n : Nat} (hn : agreeAfter f.judgement.cond s.cands[f.route] = n) (hne : n ≠ b.judging.confirm) :
    takeFinding f s = (askTest confirmBit f.route .check f.cls
      (setCand f.route (some { cond := f.judgement.cond, agree := n }) s)).2 := by
  obtain ⟨x, hx⟩ := Option.ne_none_iff_exists'.mp hbase
  subst hn
  unfold takeFinding
  rw [hb]
  dsimp only
  rw [hx]
  exact (if_neg hcond).trans (if_neg hne)

end

/-- Settles O60: each clause is one branch of the tracker, and the confirming CHECK is asked for as a TEST is. -/
theorem findingsAreTaken : Obligations.FindingsAreTaken := by
  intro f s
  refine ⟨fun hdiscard => ?_, fun b x hb hx => ⟨fun hcond => ?_, fun n hcond hsame hother => ⟨fun hn => ?_, ?_⟩⟩⟩
  · rcases takeFinding_cases f s with h | ⟨b, hb, hbase, -⟩
    · exact h
    · rw [hdiscard b hb] at hbase
      cases hbase
  · exact takeFinding_agreeing hb (by rw [hx]; exact Option.some_ne_none x) hcond
  · have hcount : agreeAfter f.judgement.cond s.cands[f.route] = b.judging.confirm := (agreeAfter_eq hsame hother).trans hn
    rw [takeFinding_adopts hb (by rw [hx]; exact Option.some_ne_none x) hcond hcount]
    refine ⟨_, rfl, rfl, rfl, fun k => ?_⟩
    rw [reportChange, raiseAll, perGet_raiseTo, if_pos rfl, logWrite_raises, raisesOf_append, isRaise_eq]
    rfl
  · rintro hne v rfl
    rw [takeFinding_asks hb (by rw [hx]; exact Option.some_ne_none x) hcond (agreeAfter_eq hsame hother) hne]
    generalize hv : setCand f.route (some { cond := f.judgement.cond, agree := n }) s = v
    have hcand : { s with cands := s.cands.set f.route (some { cond := f.judgement.cond, agree := n }) } = v := hv
    rw [hcand]
    have hqueue : v.queue = s.queue := by rw [← hv]; rfl
    have hengine : v.engine = s.engine := by rw [← hv]; rfl
    have hbody : v.routes[f.route].body ≠ none := by
      rw [← hv]
      show s.routes[f.route].body ≠ none
      rw [hb]
      exact Option.some_ne_none b
    have hclosed : isClosed v f.route = isClosed s f.route := by rw [← hv]; rfl
    refine ⟨fun hc => askTest_closed (by rw [hclosed, hc]), fun hopen hq => ?_⟩
    rw [← hclosed] at hopen
    have hlaw : QueueLaw v := hq.of_eq hqueue
    rw [← hqueue]
    refine ⟨fun hnone => ⟨fun hfull => ?_, fun hlen pre post hsplit hurgent hroutine => ?_⟩,
      fun pre e post hsplit hwait hr hk => ?_⟩
    · rw [askTest_full hbody hopen hnone hfull]
    · have hfresh := QueueLaw.freshId_firstFree hlaw
      rw [askTest_new hbody hopen hnone hlen]
      generalize freshId v.queue.entries 33 v.queue.counter = id at hfresh ⊢
      rw [newEntry_eq]
      refine ⟨id, placedState id confirmBit f.route .check f.cls v, hfresh,
        placedState_eq hfresh.bounds.2 hsplit hurgent hroutine, rfl, fun hfixed => port_of_fixed (.inl ?_)⟩
      show EngineFixed v
      unfold EngineFixed
      rwa [hengine]
    · have hmem : e ∈ v.queue.entries := by rw [hsplit]; simp
      rw [askTest_join hlaw hbody hopen hmem hwait hr hk]
      refine ⟨fun hstays => ?_, fun hcls hroutine ups rest hrest hups hrestCls => ?_⟩
      · dsimp only
        rw [joinEntry_stays hstays, joinedState_eq hlaw hsplit]
      · have hids := hlaw.2.1
        rw [hsplit] at hids
        have hothers : v.queue.entries.filter (fun x => x.id != e.id) = ups ++ rest := by
          rw [hsplit, filter_at hids, hrest]
        dsimp only
        rw [hcls, joinEntry_upgrades hroutine]
        refine ⟨upgradedState confirmBit e v, upgradedState_eq hothers hups hrestCls, rfl, fun hfixed => arbitrate_of_fixed ?_⟩
        show EngineFixed v
        unfold EngineFixed
        rwa [hengine]

end Sys2Proof.Machine
end

section
/-!
O1, O14, O15 and O16: a step, the state after reset, and what each kind of reset leaves. A reset is its start (`beginReset`, with
`powerLoss` for a power-on) and its end (`endReset`); what the end does is said once, for a card that its start has emptied.
-/
namespace Sys2Proof.Machine

/-- Settles O1, by the two cases of the queue of commands. -/
theorem stepRunsFrontCommand : Obligations.StepRunsFrontCommand := by
  refine ⟨fun i rest s h => ?_, fun s h => ?_⟩
  · unfold step
    rw [h]
  · unfold step
    rw [h]

section
variable {k : ResetKind} {s t : State}

theorem mem_listedBlocks_iff {b : Nat} :
    b ∈ listedBlocks s ↔ ∃ (r : RouteNo) (v : RouteBody) (x : Baseline),
      s.routes[r].body = some v ∧ v.baseline = some x ∧ b ∈ x.blocks := by
  unfold listedBlocks
  rw [List.mem_flatMap]
  constructor
  · rintro ⟨e, he, hb⟩
    obtain ⟨i, hi, rfl⟩ := List.getElem_of_mem he
    have hi' : i < 48 := by simpa using hi
    split at hb
    · rename_i x hx
      obtain ⟨v, hv, hx⟩ := Option.bind_eq_some_iff.mp hx
      exact ⟨⟨i, hi'⟩, v, x, by simpa using hv, hx, hb⟩
    · exact absurd hb List.not_mem_nil
  · rintro ⟨r, v, x, hv, hx, hb⟩
    have hbind : s.routes[r].body.bind RouteBody.baseline = some x := by
      rw [hv]
      exact hx
    refine ⟨s.routes[r], by simp, ?_⟩
    rw [hbind]
    exact hb

theorem rebuiltPool_eq (s : State) :
    rebuiltPool s = (List.range 1024).filter (fun b => !decide (b ∈ listedBlocks s) && !decide (b ∈ s.store.bad)) := by
  unfold rebuiltPool
  simp only [List.contains_eq_mem]

/-! ### The start of a reset -/

theorem beginReset_returned (s : State) : ReservationReturned s (beginReset s) := returnReservation_returned s

theorem writeInFlight_beginReset (s : State) : writeInFlight (beginReset s) = writeInFlight s := by
  unfold writeInFlight
  rw [beginReset_store]
  rcases returnReservation_eq s with k | ⟨r, hr, hheld, k⟩ <;> rw [k]
  simp [hr, writingBlock, hheld]

theorem emptied_beginReset (s : State) : Emptied (beginReset s) := by
  refine ⟨rfl, rfl, rfl, rfl, fun hw => ?_, fun r => ⟨?_, ?_⟩, rfl, rfl, rfl, rfl, rfl⟩
  · rw [beginReset_trace, ← writeInFlight_beginReset, hw]
    rfl
  · rw [beginReset_records]
    simp
  · rw [beginReset_cands]
    simp

theorem beginReset_fault (s : State) : (beginReset s).front.fault = s.front.fault :=
  (congrArg FrontEnd.fault (beginReset_front s)).trans rfl

theorem powerLoss_fault (s : State) : (powerLoss s).front.fault = s.front.fault :=
  (congrArg FrontEnd.fault (powerLoss_front s)).trans rfl

theorem writeInFlight_powerLoss (s : State) : writeInFlight (powerLoss s) = false := by
  unfold writeInFlight
  rw [powerLoss_resv]
  rfl

theorem emptied_powerLoss (s : State) : Emptied (powerLoss s) := by
  refine ⟨rfl, rfl, rfl, rfl, fun _ => rfl, fun r => ⟨?_, ?_⟩, rfl, rfl, rfl, rfl, rfl⟩
  · rw [powerLoss_records]
    simp
  · rw [powerLoss_cands]
    simp

theorem powerLoss_window (s : State) (w : WindowNo) :
    (powerLoss s).windows[w] = { settings := s.windows[w].settings, remaining := none } := by
  rw [powerLoss_windows, mapTable_getFin]

theorem powerLoss_bad_kept (s : State) : (powerLoss s).store.bad = s.store.bad := by
  rw [powerLoss_bad]
  exact (beginReset_returned s).1

theorem powerLoss_pool (s : State) :
    (powerLoss s).store.free
      = (List.range 1024).filter (fun b => !decide (b ∈ listedBlocks s) && !decide (b ∈ s.store.bad)) := by
  rw [powerLoss_free, ← rebuiltPool_congr (beginReset_routes s) (beginReset_returned s).1, rebuiltPool_eq]

/-- Power loss spoils no block but one whose write it cuts off. -/
theorem powerLoss_block (s : State) (b : Nat) (h : ¬BeingWritten b s) :
    readBlock (powerLoss s).store.mem b = readBlock s.store.mem b := by
  rcases ContentsOk.powerLoss_mem s with hmem | ⟨r, w, data, hr, hp, hmem⟩
  · rw [hmem]
  · have hne : b ≠ r.blocks.getD w 0 := fun hb => h ⟨r, w, data, hr, hp, hb.symm⟩
    rw [hmem, readBlock_writeBlock, if_neg hne]

/-! ### The end of a reset -/

theorem repairedAs_repairedFault (now : Time) (e : RouteEntry) (f : FaultRecord) : RepairedAs now e f (repairedFault now e f) := by
  unfold RepairedAs repairedFault
  cases e.body.bind RouteBody.baseline <;> rfl

theorem inService_faults (r : RouteNo) : (inService k s).faults[r] = repairedFault s.clock.now s.routes[r] s.faults[r] :=
  repairConditions_faults { s with shelf := none } r

/-- The RESET entry is one entry, below every threshold of 64: it makes no raise. -/
theorem inService_notices (h : Emptied s) (hnext : s.log.next = 0) (hring : s.log.ring = []) :
    (inService k s).notices = s.notices := by
  obtain ⟨-, -, -, -, -, -, -, -, -, hreaders, -⟩ := h
  refine perClient_ext fun c => ?_
  have hquiet : reachesThreshold s.log c = false := by
    unfold reachesThreshold unreadCount
    rw [hreaders, hring, hnext]
    cases c <;> rfl
  show perGet (raiseTo (reachesThreshold s.log) .log s).notices c = _
  rw [perGet_raiseTo, hquiet]
  rfl

theorem inService_log (hring : s.log.ring = []) (hnext : s.log.next = 0) :
    (inService k s).log.ring = [{ number := 0, time := s.clock.now, body := .reset k }] ∧ (inService k s).log.next = 1
      ∧ ((∀ c, perGet s.log.readers c = { cursor := 0, overrun := false, threshold := 64 }) →
        (inService k s).log.readers = PerClient.const { cursor := 0, overrun := false, threshold := 64 }) := by
  have hlog : (inService k s).log = logAfterWrite s.clock.now (.reset k) s.log := rfl
  rw [hlog]
  unfold logAfterWrite
  refine ⟨?_, ?_, fun hreaders => ?_⟩
  · dsimp only
    rw [hring, hnext]
    rfl
  · dsimp only
    rw [hnext]
  · refine perClient_ext fun c => ?_
    rw [perGet_perGen, readerAfterWrite, hring, if_neg fun hfull => absurd hfull.1 (by decide), hreaders]
    cases c <;> rfl

theorem afterReset_inService (h : Emptied s) (hring : s.log.ring = []) (hnext : s.log.next = 0) :
    AfterReset k (inService k s) := by
  have hnotices := inService_notices (k := k) h hnext hring
  obtain ⟨hentry, hcount, hread⟩ := inService_log (k := k) hring hnext
  obtain ⟨hlaser, hchecking, hrecord, hequip, htrace, htables, hqueue, hnoticed, hlinks, hreaders, harmed⟩ := h
  refine ⟨⟨hlaser, hchecking, hrecord, hequip, htrace, htables, hqueue, hnotices.trans hnoticed, hlinks, hread fun c => ?_,
    harmed⟩, rfl, hentry, hcount⟩
  rw [hreaders]
  cases c <;> rfl

/-- The homing changes switch and engine alone where no entry waits. -/
theorem homeSwitch_empty (hqueue : s.queue.entries = []) :
    homeSwitch s = { s with switch := (homeSwitch s).switch, engine := (homeSwitch s).engine }
      ∧ if s.switch = .standing .home then (homeSwitch s).engine = s.engine.freed .idle ∧ (homeSwitch s).switch = s.switch
        else (homeSwitch s).engine
            = { s.engine.freed .recovering with timer := some (.switch (timeoutMs s.device.timeout)) }
          ∧ (homeSwitch s).switch = .moving .home := by
  unfold homeSwitch
  split
  · rename_i hhome
    have hnone : handOut { s with engine := s.engine.freed .idle } = { s with engine := s.engine.freed .idle } := by
      refine handOut_of_none ?_
      rw [hqueue]
      rfl
    rw [hnone]
    exact ⟨rfl, rfl, rfl⟩
  · exact ⟨rfl, rfl, rfl⟩

/-- What the end of a reset makes of a card that its start has emptied (R24, R136, R175). -/
structure Served (k : ResetKind) (s t : State) : Prop where
  after : AfterReset k t
  homing : Homing s t
  only : t = { s with
    switch := t.switch, engine := t.engine, notices := t.notices, log := t.log, faults := t.faults, shelf := none }
  faults : ∀ r : RouteNo, RepairedAs s.clock.now s.routes[r] s.faults[r] t.faults[r]

theorem endReset_served (k : ResetKind) (h : Emptied s) (hring : s.log.ring = []) (hnext : s.log.next = 0)
    (hengine : s.engine = recovering none) : Served k s (endReset k s) := by
  have hafter := afterReset_inService (k := k) h hring hnext
  have honly : inService k s = { s with
      switch := (inService k s).switch, engine := (inService k s).engine, notices := (inService k s).notices
      log := (inService k s).log, faults := (inService k s).faults, shelf := none } := rfl
  have hfaults (r : RouteNo) : RepairedAs s.clock.now s.routes[r] s.faults[r] (inService k s).faults[r] := by
    rw [inService_faults]
    exact repairedAs_repairedFault _ _ _
  have hfreed (st : EngineState) : (recovering none).freed st = { recovering none with state := st } := rfl
  obtain ⟨⟨-, -, -, -, -, -, hqueue, -⟩, -⟩ := hafter
  obtain ⟨hhomed, hwhere⟩ := homeSwitch_empty (s := inService k s) (by rw [hqueue])
  have hinEngine : (inService k s).engine = recovering none := hengine
  have hinSwitch : (inService k s).switch = s.switch := rfl
  have hinDevice : (inService k s).device = s.device := rfl
  rw [hinEngine, hinSwitch, hinDevice, hfreed, hfreed] at hwhere
  have hafter := afterReset_inService (k := k) h hring hnext
  rw [endReset_eq]
  by_cases hw : writeInFlight s = true
  · rw [if_pos hw]
    refine ⟨hafter, ?_, honly, hfaults⟩
    unfold Homing
    rw [if_pos hw]
    exact ⟨hengine, rfl⟩
  · rw [if_neg hw]
    generalize hu : homeSwitch (inService k s) = u at hhomed hwhere ⊢
    refine ⟨?_, ?_, ?_, fun r => ?_⟩
    · rw [hhomed]
      exact hafter
    · unfold Homing
      rw [if_neg hw]
      exact hwhere
    · rw [hhomed]
      exact congrArg (fun v : State => { v with switch := u.switch, engine := u.engine }) honly
    · have := hfaults r
      rw [hhomed]
      exact this

theorem served_begun (k : ResetKind) (s : State) : Served k (beginReset s) (endReset k (beginReset s)) :=
  endReset_served k (emptied_beginReset s) rfl rfl rfl

theorem served_powerLoss (k : ResetKind) (s : State) : Served k (powerLoss s) (endReset k (powerLoss s)) :=
  endReset_served k (emptied_powerLoss s) rfl rfl rfl

end

/-- Settles O15: the start of the reset leaves what the card retains and the end of it makes the card ready. -/
theorem powerOnAndCraftReset : Obligations.PowerOnAndCraftReset := by
  refine ⟨fun s b => mem_listedBlocks_iff, fun s hshelf => ?_, fun s hshelf => ⟨?_, fun harmed howed => ?_⟩⟩
  · have hserved := served_powerLoss .powerOn s
    have hexec : exec .powerOn s = .next (endReset .powerOn (powerLoss s)) := by
      show execPowerOn s = _
      rw [execPowerOn, hshelf]
      rfl
    rw [hexec]
    generalize endReset .powerOn (powerLoss s) = t at hserved
    obtain ⟨hafter, hhoming, honly, hfaults⟩ := hserved
    have hstore : t.store = (powerLoss s).store := (congrArg State.store honly).trans rfl
    unfold Homing at hhoming
    rw [writeInFlight_powerLoss, if_neg (by decide), if_neg (by rw [powerLoss_switch]; decide)] at hhoming
    obtain ⟨hengine, hswitch⟩ := hhoming
    refine ⟨t, rfl, hafter, (congrArg State.trace honly).trans rfl, ?_, (congrArg State.pending honly).trans (powerLoss_pending s),
      (congrArg State.device honly).trans (powerLoss_device s), (congrArg State.routes honly).trans (powerLoss_routes s),
      fun r => ?_, ?_, hswitch, (congrArg State.clock honly).trans rfl, fun w => ?_, ?_, ?_, ?_, fun b hb => ?_⟩
    · rw [honly]
      exact powerLoss_fault s
    · have := hfaults r
      rw [powerLoss_routes, powerLoss_faults] at this
      exact this
    · rw [hengine, powerLoss_device]
    · rw [honly]
      exact powerLoss_window s w
    · rw [hstore, powerLoss_resv]
    · rw [hstore, powerLoss_bad_kept]
    · rw [hstore, powerLoss_pool]
    · rw [hstore, powerLoss_block s b hb]
  · have hserved := served_begun .craftReset s
    have hexec : exec .craftReset s = .next (endReset .craftReset (beginReset s)) := by
      show execCraftReset s = _
      rw [execCraftReset, hshelf]
      rfl
    rw [hexec]
    generalize endReset .craftReset (beginReset s) = t at hserved
    obtain ⟨hafter, hhoming, honly, hfaults⟩ := hserved
    have hreturned := beginReset_returned s
    have hstore : t.store = (beginReset s).store := (congrArg State.store honly).trans rfl
    refine ⟨t, rfl, hafter, (congrArg State.trace honly).trans rfl, ?_, ?_, ?_,
      (congrArg State.pending honly).trans (beginReset_pending s),
      (congrArg State.device honly).trans (beginReset_device s), (congrArg State.routes honly).trans (beginReset_routes s),
      (congrArg State.clock honly).trans (beginReset_clock s), (congrArg State.windows honly).trans (beginReset_windows s),
      (congrArg State.freeCount honly).trans (beginReset_freeCount s), fun r => ?_⟩
    · unfold Homing at hhoming ⊢
      rw [writeInFlight_beginReset, beginReset_switch, beginReset_device] at hhoming
      exact hhoming
    · unfold ReservationReturned at hreturned ⊢
      rw [hstore]
      exact hreturned
    · rw [honly]
      exact beginReset_fault s
    · have := hfaults r
      rw [beginReset_routes, beginReset_faults, beginReset_clock] at this
      exact this
  · have hsent : exec (.replySent .cr) s = .next (craftResetNow s) := by
      show execReplySent .cr s = _
      unfold execReplySent
      dsimp only
      rw [if_neg (show ¬(perGet s.links .cr).owed = [] from howed), if_pos ⟨rfl, harmed⟩]
    have hreset : exec .craftReset s = .next (craftResetNow s) := by
      show execCraftReset s = _
      rw [execCraftReset, hshelf]
      rfl
    rw [hsent, hreset]

/-- Settles O16: the hold is a reset that has begun, and the release is its end. -/
theorem shelfResetAndRelease : Obligations.ShelfResetAndRelease := by
  refine ⟨fun s => ⟨fun hshelf => ?_, fun k hshelf => ⟨?_, ?_⟩⟩, fun s => ⟨fun hshelf => ?_, fun k hheld => ?_⟩⟩
  · have hexec : exec .shelfReset s = .next { beginReset s with shelf := some .shelfReset } := by
      show execShelfReset s = _
      rw [execShelfReset, hshelf]
      rfl
    exact ⟨_, hexec, ⟨emptied_beginReset s, rfl, rfl, rfl, rfl⟩, rfl, beginReset_returned s,
      beginReset_fault s, beginReset_switch s, beginReset_clock s, beginReset_windows s,
      beginReset_device s, beginReset_routes s, beginReset_faults s, beginReset_freeCount s, beginReset_pending s⟩
  · show execShelfReset s = _
    rw [execShelfReset, hshelf]
    rfl
  · have hexec : exec .powerOn s = .next { powerLoss s with shelf := some .powerOn } := by
      show execPowerOn s = _
      rw [execPowerOn, hshelf]
      rfl
    exact ⟨_, hexec, ⟨emptied_powerLoss s, rfl, rfl, rfl, rfl⟩, rfl, powerLoss_fault s, rfl, rfl,
      powerLoss_window s, powerLoss_device s, powerLoss_routes s, powerLoss_faults s, powerLoss_resv s, powerLoss_bad_kept s,
      powerLoss_pending s, powerLoss_pool s, powerLoss_block s⟩
  · show execShelfResetRelease s = _
    rw [execShelfResetRelease, hshelf]
  · have hexec : exec .shelfResetRelease s = .next (endReset k s) := by
      show execShelfResetRelease s = _
      rw [execShelfResetRelease, hheld.shelf]
    obtain ⟨hemptied, -, hring, hnext, hengine⟩ := hheld
    have hserved := endReset_served k hemptied hring hnext hengine
    rw [hexec]
    generalize endReset k s = t at hserved
    obtain ⟨hafter, hhoming, honly, hfaults⟩ := hserved
    exact ⟨t, rfl, hafter, (congrArg State.trace honly).trans rfl, hhoming, by rw [honly], (congrArg State.store honly).trans rfl,
      (congrArg State.clock honly).trans rfl, (congrArg State.windows honly).trans rfl,
      (congrArg State.device honly).trans rfl, (congrArg State.routes honly).trans rfl,
      (congrArg State.freeCount honly).trans rfl, (congrArg State.pending honly).trans rfl, hfaults⟩

/-! ### The state after reset -/

theorem reset_route (r : RouteNo) : State.reset.routes[r] = RouteEntry.fresh := by simp [State.reset]

theorem reset_fault (r : RouteNo) : State.reset.faults[r] = FaultRecord.unknownAt Time.zero := by simp [State.reset]

theorem reset_cand (r : RouteNo) : State.reset.cands[r] = none := by simp [State.reset]

theorem reset_window (w : WindowNo) : State.reset.windows[w] = Window.fresh := by simp [State.reset]

theorem reset_listedBlocks : listedBlocks State.reset = [] := by
  refine List.eq_nil_iff_forall_not_mem.mpr fun b hb => ?_
  obtain ⟨r, v, -, hv, -⟩ := mem_listedBlocks_iff.mp hb
  rw [reset_route] at hv
  cases hv

theorem reset_contentsLaw : ContentsLaw State.reset := by
  refine ⟨reset_mem_wf, nofun, nofun, nofun, fun r b x hb => ?_, nofun⟩
  rw [reset_route] at hb
  cases hb

/-- The repair of R136 finds every route UNUSED and UNKNOWN. -/
theorem reset_repaired (s : State) (hr : s.routes = State.reset.routes) (hf : s.faults = State.reset.faults) :
    (repairConditions s).faults = State.reset.faults := by
  refine Vector.ext fun i hi => ?_
  have hat := repairConditions_faults s ⟨i, hi⟩
  rw [hr, hf, reset_route, reset_fault] at hat
  exact hat.trans (reset_fault ⟨i, hi⟩).symm

theorem reset_powerLoss : powerLoss State.reset
    = { State.reset with
        switch := .unknown, engine := Engine.waiting
        log := { ring := [], next := 0, readers := PerClient.const LogReader.reset } } := by
  have hfree : (powerLoss State.reset).store.free = List.range 1024 := by
    rw [powerLoss_pool, reset_listedBlocks]
    exact List.filter_eq_self.mpr fun b _ => rfl
  have hwindows : (powerLoss State.reset).windows = State.reset.windows := by
    refine Vector.ext fun i hi => ?_
    have hat := powerLoss_window State.reset ⟨i, hi⟩
    rw [reset_window] at hat
    exact hat.trans (reset_window ⟨i, hi⟩).symm
  have hmem : (powerLoss State.reset).store.mem = State.reset.store.mem := by
    rcases ContentsOk.powerLoss_mem State.reset with h | ⟨r, -, -, hr, -⟩
    · exact h
    · cases hr
  have hcount : (powerLoss State.reset).freeCount = 0 := rfl
  have hstore (u : Store) (hfree : u.free = List.range 1024) (hbad : u.bad = []) (hresv : u.resv = none)
      (hmem : u.mem = []) : u = State.reset.store := by
    cases u
    simp only at hfree hbad hresv hmem
    rw [hfree, hbad, hresv, hmem]
    rfl
  have honly (t : State) (ht : t = powerLoss State.reset) : t
      = { beginReset State.reset with
          switch := .unknown, trace := .empty, clock := { now := Time.zero, running := false }, windows := t.windows
          store := t.store, freeCount := t.freeCount } := by
    rw [ht]
    rfl
  rw [honly _ rfl, hstore _ hfree (powerLoss_bad_kept _) (powerLoss_resv _) hmem, hwindows, hcount]
  rfl

/-- What POWER_ON leaves of the state after reset is that state. -/
theorem powerOn_reset : exec .powerOn State.reset = .next State.reset := by
  have hexec : exec .powerOn State.reset = .next (endReset .powerOn (powerLoss State.reset)) := rfl
  have hfaults : (inService .powerOn (powerLoss State.reset)).faults = State.reset.faults :=
    reset_repaired { powerLoss State.reset with shelf := none } (powerLoss_routes _) (powerLoss_faults _)
  have hserved : inService .powerOn (powerLoss State.reset)
      = { powerLoss State.reset with
          log := State.reset.log, faults := (inService .powerOn (powerLoss State.reset)).faults } := by
    rw [reset_powerLoss]
    rfl
  rw [hexec, endReset_eq, writeInFlight_powerLoss, if_neg (by decide), hserved, hfaults, reset_powerLoss]
  rfl

/-- Settles O14, law by law: nothing waits, nothing is stored and nothing is owed. -/
theorem resetMeetsTheLaws : Obligations.ResetMeetsTheLaws := by
  have hrouteBody (r : RouteNo) : State.reset.routes[r].body = none := by
    rw [reset_route]
    rfl
  have hmarks (c : Client) : perGet State.reset.queue.marks c = [] := by
    cases c <;> rfl
  refine ⟨fun i hi => absurd hi List.not_mem_nil, ?time, ?line, ?log, ?link, ?route, ?cond, ⟨nofun, nofun⟩, ?block, ?queue,
    ?mark, ⟨nofun, fun _ => ⟨rfl, nofun⟩⟩, ⟨nofun, nofun, nofun⟩, nofun, reset_contentsLaw, nofun, powerOn_reset, rfl, rfl,
    fun r => ⟨reset_route r, reset_fault r⟩, fun w => ?window⟩
  case time =>
    refine ⟨by unfold TimeOk; decide, fun w => ?_, fun _ w => ?_⟩ <;> rw [reset_window]
    · exact ⟨by decide, by decide, by decide, by decide, nofun⟩
    · rfl
  case line =>
    refine ⟨fun c => ?_, fun c m hm => ?_⟩
    · have hline : LineOk NoticeState.reset := ⟨by decide, by decide, nofun, rfl, rfl⟩
      cases c <;> exact hline
    · rw [hmarks c] at hm
      cases hm
  case log =>
    refine ⟨by decide, by decide, fun i hi => ?_, fun c => ?_⟩
    · obtain rfl : i = 0 := Nat.lt_one_iff.mp hi
      rfl
    · cases c <;> decide
  case link =>
    have hlink : LinkOk Link.reset := ⟨trivial, ⟨fun _ => rfl, fun _ => rfl⟩, by decide, fun r hr => absurd hr List.not_mem_nil⟩
    refine ⟨fun c => ?_, nofun, nofun⟩
    cases c <;> exact hlink
  case route =>
    intro r b hb
    rw [hrouteBody] at hb
    cases hb
  case cond =>
    intro r
    rw [reset_fault, reset_route, reset_cand]
    exact ⟨⟨fun _ => by decide, fun _ => rfl⟩, nofun⟩
  case block =>
    have hfree : State.reset.store.free = List.range 1024 := by simp only [State.reset]
    have hbad : State.reset.store.bad = [] := by simp only [State.reset]
    have hreserved : reservedBlocks State.reset = [] := by simp only [reservedBlocks, State.reset]
    unfold BlockLaw
    rw [reset_listedBlocks, hfree, hbad, hreserved, List.append_nil, List.append_nil, List.append_nil]
    exact ⟨.refl _, List.pairwise_lt_range⟩
  case queue => exact ⟨by decide, List.nodup_nil, nofun, .nil, .nil, by decide, by decide⟩
  case mark =>
    intro c
    rw [hmarks c]
    exact ⟨.nil, nofun⟩
  case window =>
    rw [reset_window]
    rfl

end Sys2Proof.Machine
end

section
/-!
O18 and O19: the receive assembly, what becomes of a completed frame, the replies of a link, and the privileges.
-/
namespace Sys2Proof.Machine

section
variable {c : Client} {s : State}

section
variable (b : Byte) (hs : s.shelf = none)
include hs

theorem exec_character_hunt (hrx : (perGet s.links c).rx = .hunt) :
    exec (.characterReceived c b) s = .next (if b = 0xA5 then withRx c .length s else s) := by
  show execCharacterReceived c b s = _
  rw [execCharacterReceived, hs, hrx]
  rfl

theorem exec_character_counts (hrx : (perGet s.links c).rx = .length) :
    exec (.characterReceived c b) s
      = .next (withRx c (if 2 ≤ b.toNat ∧ b.toNat ≤ 250 then .body b.toNat [] else .hunt) s) := by
  show execCharacterReceived c b s = _
  rw [execCharacterReceived, hs, hrx]
  rfl

theorem exec_character_gathers {n : Nat} {got : List Byte} (hrx : (perGet s.links c).rx = .body n got) :
    exec (.characterReceived c b) s
      = .next (withRx c (if got.length + 1 < n then .body n (got ++ [b]) else .check (got ++ [b]) none) s) := by
  show execCharacterReceived c b s = _
  have hlen : (got ++ [b]).length = got.length + 1 := List.length_append
  rw [execCharacterReceived, hs, hrx, ← hlen]
  rfl

theorem exec_character_checkHigh {body : List Byte} (hrx : (perGet s.links c).rx = .check body none) :
    exec (.characterReceived c b) s = .next (withRx c (.check body (some b)) s) := by
  show execCharacterReceived c b s = _
  rw [execCharacterReceived, hs, hrx]
  rfl

theorem exec_character_ends {body : List Byte} {high : Byte} (hrx : (perGet s.links c).rx = .check body (some high)) :
    exec (.characterReceived c b) s
      = if frameCheck (BitVec.ofNat 8 body.length :: body) = high ++ b then takeFrame c body (setRx c .hunt s)
        else .next (withRx c .hunt s) := by
  have hcheck : (checkAgrees body high b = true) = (frameCheck (BitVec.ofNat 8 body.length :: body) = high ++ b) := by
    simp [checkAgrees]
  show execCharacterReceived c b s = _
  rw [← if_congr (Eq.to_iff hcheck) rfl rfl, execCharacterReceived, hs, hrx]
  rfl

end

/-- A frame with tag and code reaches the link of its client, whatever it asks for (R179, R180). -/
theorem takeFrame_reaches (c : Client) (tag code : Byte) (ps : List Byte) (s : State) :
    ∃ own, takeFrame c (tag :: code :: ps) s = .next (onLink c tag code.toNat own s) := by
  unfold takeFrame
  dsimp only
  split
  · exact ⟨_, rfl⟩
  · split
    · rename_i r hr
      rw [serve_eq_exec, exec_on_eq, parseRequest_code hr]
      exact ⟨_, rfl⟩
    · exact ⟨_, rfl⟩

theorem knownCode_iff {n : Nat} : knownCode n = true ↔ 1 ≤ n ∧ n ≤ 0x1C := by
  simp [knownCode]

theorem setRx_ready (h : Ready c s) (a : Assembly) : Ready c (setRx c a s) := by
  obtain ⟨hs, hservice⟩ := h
  refine ⟨hs, ?_⟩
  show (perGet (perSet s.links c _) c).service = none
  rw [perGet_perSet, if_pos rfl]
  exact hservice

theorem refuseBusy_eq (c : Client) (tag : Byte) (s : State) :
    refuseBusy c tag s
      = if ((perGet s.links c).owed.filter fun x => x.status == .busy).length < 4 then
          withLink c
            { rx := (perGet s.links c).rx, service := (perGet s.links c).service
              owed := (perGet s.links c).owed ++ [{ tag := tag, status := .busy, data := .none }] } s
        else s := rfl

/-- The busy answer of a frame that has just been completed (R179). -/
theorem refuseBusy_setRx (c : Client) (tag : Byte) (s : State) :
    refuseBusy c tag (setRx c .hunt s)
      = if ((perGet s.links c).owed.filter fun x => x.status == .busy).length < 4 then
          withLink c
            { rx := .hunt, service := (perGet s.links c).service
              owed := (perGet s.links c).owed ++ [{ tag := tag, status := .busy, data := .none }] } s
        else withRx c .hunt s := by
  rw [refuseBusy_eq]
  cases c <;> rfl

theorem takeFrame_busy (hs : s.shelf = none) (hservice : (perGet s.links c).service ≠ none) (tag code : Byte) (ps : List Byte) :
    takeFrame c (tag :: code :: ps) (setRx c .hunt s) = .next (refuseBusy c tag (setRx c .hunt s)) := by
  obtain ⟨own, h⟩ := takeFrame_reaches c tag code ps (setRx c .hunt s)
  have hbusy : (perGet (setRx c .hunt s).links c).service ≠ none := by
    show (perGet (perSet s.links c _) c).service ≠ none
    rw [perGet_perSet, if_pos rfl]
    exact hservice
  rw [h, onLink_busy (s := setRx c .hunt s) tag _ own hs hbusy]

/-- A code outside Table 11-1 is answered BAD_REQUEST (R180, check 1). -/
theorem takeFrame_unknown (h : Ready c s) (tag code : Byte) (ps : List Byte) (hcode : knownCode code.toNat = false) :
    takeFrame c (tag :: code :: ps) s = .next (replied c tag code.toNat .badRequest .none s) := by
  unfold takeFrame
  dsimp only
  rw [hcode, if_pos (by decide), onLink_ready tag _ _ h]
  rfl

/-- Parameters that do not fit come after the privilege (R180, checks 2 and 3). -/
theorem takeFrame_misshaped (h : Ready c s) (tag code : Byte) (ps : List Byte) (hcode : knownCode code.toNat = true)
    (hparse : parseRequest code.toNat ps = none) :
    takeFrame c (tag :: code :: ps) s
      = .next (replied c tag code.toNat (if permitted code.toNat c then .badRequest else .notPermitted) .none s) := by
  unfold takeFrame
  dsimp only
  rw [hcode, if_neg (by decide), hparse]
  cases hp : permitted code.toNat c with
  | true => exact request_answered h hp rfl
  | false => exact request_not_permitted h hp

theorem takeFrame_parsed (tag code : Byte) (ps : List Byte) {r : Request} (hcode : knownCode code.toNat = true)
    (hparse : parseRequest code.toNat ps = some r) : takeFrame c (tag :: code :: ps) s = exec (r.on c tag) s := by
  unfold takeFrame
  dsimp only
  rw [hcode, if_neg (by decide), hparse]
  exact serve_eq_exec c tag r s

theorem exec_replySent (c : Client) (s : State) {r : Reply} {rest : List Reply} (howed : (perGet s.links c).owed = r :: rest)
    (harmed : ¬(c = .cr ∧ s.craftArmed = true)) :
    exec (.replySent c) s = .next (withLink c
      { rx := (perGet s.links c).rx, service := if rest = [] then none else (perGet s.links c).service, owed := rest } s) := by
  show execReplySent c s = _
  unfold execReplySent
  dsimp only
  rw [if_neg (by rw [howed]; exact List.cons_ne_nil r rest), if_neg harmed]
  unfold linkAfterSent
  rw [howed]
  cases rest <;> rfl

end

/-- Settles O18, state of the assembly by state of the assembly; a completed frame by its check, the link's service and its
code. -/
theorem assemblyMoves : Obligations.AssemblyMoves := by
  intro c b s hs
  have hdone {body : List Byte} {high : Byte} (hrx : (perGet s.links c).rx = .check body (some high))
      (hcheck : frameCheck (BitVec.ofNat 8 body.length :: body) = high ++ b) :
      exec (.characterReceived c b) s = takeFrame c body (setRx c .hunt s) := by
    rw [exec_character_ends b hs hrx, if_pos hcheck]
  refine ⟨exec_character_hunt b hs, exec_character_counts b hs, fun n got => exec_character_gathers b hs,
    fun body => exec_character_checkHigh b hs, fun body high hrx hcheck => ?_,
    fun tag code ps high hrx hcheck hservice => ?_, fun tag code ps high hrx hcheck hservice => ?_, ?_, ?_⟩
  · rw [exec_character_ends b hs hrx, if_neg hcheck]
  · have hready : Ready c (setRx c .hunt s) := setRx_ready ⟨hs, hservice⟩ _
    have htaken := hdone hrx hcheck
    refine ⟨fun hcode => ?_, fun hlow hhigh hparse => ?_, fun r hparse => ?_⟩
    · rw [htaken]
      refine takeFrame_unknown hready tag code ps (Bool.eq_false_iff.mpr fun hknown => ?_)
      obtain ⟨hlow, hhigh⟩ := knownCode_iff.mp hknown
      rcases hcode with rfl | hlarge
      · exact absurd hlow (by decide)
      · omega
    · rw [htaken]
      exact takeFrame_misshaped hready tag code ps (knownCode_iff.mpr ⟨hlow, hhigh⟩) hparse
    · rw [htaken]
      have hknown : knownCode code.toNat = true := by
        rw [← parseRequest_code hparse]
        exact knownCode_iff.mpr r.code_known
      exact takeFrame_parsed tag code ps hknown hparse
  · rw [hdone hrx hcheck, takeFrame_busy hs hservice, refuseBusy_setRx]
  · show execFramingError c s = _
    rw [execFramingError, hs]
    rfl
  · show execGapTimerExpiry c s = _
    rw [execGapTimerExpiry, hs]
    rfl

/-- Settles O19: replies one by one, a busy link, and the rows of Table 11-1 that name their senders. -/
theorem linkServiceAndPrivileges : Obligations.LinkServiceAndPrivileges := by
  refine ⟨fun c s => ⟨fun howed => ?_, fun r rest howed harmed => exec_replySent c s howed harmed⟩,
    fun c tag r s hs hservice => ?_, fun c tag r s h hsender => ?_⟩
  · show execReplySent c s = _
    unfold execReplySent
    exact if_pos howed
  · rw [exec_on_eq, onLink_busy tag _ _ hs hservice]
    rfl
  · have hrefused : permitted r.code c = false := by
      rcases hsender with ⟨rfl, hcode⟩ | ⟨hne, hcode⟩
      · have hnotLs : notFromLs r.code = true := by
          simpa only [notFromLs, List.contains_iff_mem] using hcode
        simp [permitted, hnotLs]
      · have hcraft : craftOnly r.code = true := by
          simpa [craftOnly] using hcode
        cases c with
        | cr => exact absurd rfl hne
        | ls | scA | scB => simp [permitted, hcraft]
    rw [exec_on]
    exact request_not_permitted h hrefused

end Sys2Proof.Machine
end

section
/-!
O21, O22 and O23: the reads. Each is the answer of one owner that leaves the state as it is; what the owner answers is said case by
case.
-/
namespace Sys2Proof.Machine

section
variable {c : Client} {tag : Byte} {s : State}

theorem windowOf_val (w : WindowNo) : windowOf w.val = some w := by simp [windowOf]

theorem windowOf_large {n : Nat} (h : 8 ≤ n) : windowOf n = none := by
  simp [windowOf]
  omega

/-- The set of covered routes holds the members of the route sets of the OPEN windows (R155). -/
theorem mem_coveredRoutes (s : State) (r : RouteNo) :
    has (coveredRoutes s) r = true
      ↔ ∃ v : WindowNo, s.windows[v].remaining ≠ none ∧ has s.windows[v].settings.routes r = true := by
  have hfold (ws : List Window) (acc : RouteSet) :
      has (ws.foldl (fun acc w => if w.remaining.isSome then acc ||| w.settings.routes else acc) acc) r = true
        ↔ has acc r = true ∨ ∃ w ∈ ws, w.remaining ≠ none ∧ has w.settings.routes r = true := by
    induction ws generalizing acc with
    | nil => simp
    | cons w ws ih =>
      rw [List.foldl_cons, ih]
      simp only [List.mem_cons, exists_eq_or_imp]
      cases hw : w.remaining with
      | none => simp
      | some n => simp [has, or_assoc]
  unfold coveredRoutes
  rw [hfold]
  constructor
  · rintro (hzero | ⟨w, hw, hopen, hr⟩)
    · exact absurd hzero (Bool.eq_false_iff.mp (has_zero _))
    · obtain ⟨i, hi, rfl⟩ := List.getElem_of_mem hw
      have hi' : i < 8 := by simpa using hi
      exact ⟨⟨i, hi'⟩, by simpa using hopen, by simpa using hr⟩
  · rintro ⟨v, hopen, hr⟩
    exact .inr ⟨s.windows[v], by simp, hopen, hr⟩

/-! ### READ_QUEUE -/

theorem eligibilityOf_eq (s : State) (e : Entry) :
    eligibilityOf s e
      = if s.routes[e.route].holds ≠ 0 then .held
        else if inBarred s.device.barred e.route then .barred
        else if e.cls = .routine ∧ isCovered s e.route = false then .noWindow
        else .eligible := by
  unfold eligibilityOf isHeld isBarred
  simp only [bne_iff_ne, Bool.and_eq_true, beq_iff_eq, Bool.not_eq_true']

theorem queueRows_length (start : Nat) (f : Entry × Nat → QueueRow) (es : List Entry) :
    ((((es.zipIdx 1).map f).drop (start - 1)).take 16).length = min 16 (es.length - (start - 1)) := by simp

theorem queueRows_getElem {start i : Nat} (hstart : 1 ≤ start) (f : Entry × Nat → QueueRow) (es : List Entry)
    (h : i < ((((es.zipIdx 1).map f).drop (start - 1)).take 16).length) (h' : start - 1 + i < es.length) :
    ((((es.zipIdx 1).map f).drop (start - 1)).take 16)[i] = f (es[start - 1 + i], start + i) := by
  rw [List.getElem_take, List.getElem_drop, List.getElem_map, List.getElem_zipIdx]
  have : 1 + (start - 1 + i) = start + i := by omega
  rw [this]

/-! ### READ_TRACE -/

theorem ownReadTrace_refused {acq offset count : Nat} (h : count = 0 ∨ 64 < count) :
    ownReadTrace acq offset count s = (s, .badValue, .none) := if_pos (by omega)

theorem ownReadTrace_notHeld {acq offset count : Nat} (h1 : 1 ≤ count) (h64 : count ≤ 64)
    (h : s.trace = .empty ∨ ∃ labels sat, s.trace = .filling labels sat) :
    ownReadTrace acq offset count s = (s, .stale, .traceStale none) := by
  unfold ownReadTrace
  rw [if_neg (by omega)]
  rcases h with h | ⟨labels, sat, h⟩ <;> rw [h]

theorem ownReadTrace_held {acq offset count : Nat} (h1 : 1 ≤ count) (h64 : count ≤ 64) {labels : TraceLabels} {dz em : Nat}
    {cells : List TraceCell} (h : s.trace = .held labels dz em cells) :
    ownReadTrace acq offset count s
      = if labels.acq ≠ acq ∨ writeCutOff s = true then (s, .stale, .traceStale (some labels.acq))
        else if cells.length ≤ offset then (s, .badValue, .none)
        else (s, .ok, .trace labels dz em (satPositions cells).length (satPositions cells).head? offset
          ((cells.drop offset).take count)) := by
  unfold ownReadTrace
  rw [if_neg (by omega), h]

theorem writeCutOff_iff : writeCutOff s = true ↔ writeInFlight s = true ∧ s.engine.state ≠ .committing := by
  simp [writeCutOff]

theorem traceCurrent {labels : TraceLabels} {acq : Nat} (hacq : labels.acq = acq)
    (hcut : writeInFlight s = false ∨ s.engine.state = .committing) : ¬(labels.acq ≠ acq ∨ writeCutOff s = true) := by
  rintro (hne | hw)
  · exact hne hacq
  · obtain ⟨hflight, hstate⟩ := writeCutOff_iff.mp hw
    rcases hcut with hnone | hcommitting
    · rw [hnone] at hflight
      cases hflight
    · exact hstate hcommitting

/-! ### READ_BASELINE -/

/-- The head of a READ_BASELINE reply (R99). -/
def baselineHead (e : RouteEntry) (b : RouteBody) (x : Baseline) : BaselineHead :=
  { revision := e.revision, len := b.acq.len, eb := x.eb, time := x.time, acq := x.acq, blocks := x.blocks.length }

theorem ownReadBaseline_refused (r : RouteNo) {offset count : Nat} {expected : Option Nat} (h : count = 0 ∨ 64 < count) :
    ownReadBaseline r offset count expected s = (s, .badValue, .none) := by
  unfold ownReadBaseline
  rw [routeOf_val]
  exact if_pos (by omega)

section
variable (r : RouteNo) {offset count : Nat} {expected : Option Nat} (h1 : 1 ≤ count) (h64 : count ≤ 64)
include h1 h64

theorem ownReadBaseline_unused (h : s.routes[r].body = none) :
    ownReadBaseline r offset count expected s = (s, .noRoute, .baselineNone s.routes[r].revision (poolSummary s)) := by
  unfold ownReadBaseline
  rw [routeOf_val]
  dsimp only
  rw [if_neg (by omega), h]

theorem ownReadBaseline_none {b : RouteBody} (h : s.routes[r].body = some b) (hb : b.baseline = none) :
    ownReadBaseline r offset count expected s = (s, .noEntry, .baselineNone s.routes[r].revision (poolSummary s)) := by
  unfold ownReadBaseline
  rw [routeOf_val]
  dsimp only
  rw [if_neg (by omega), h]
  dsimp only
  rw [hb]

theorem ownReadBaseline_some {b : RouteBody} {x : Baseline} (h : s.routes[r].body = some b) (hb : b.baseline = some x) :
    ownReadBaseline r offset count expected s
      = if expected.any (· != x.acq) = true then
          (s, .stale, .baselineStale (poolSummary s) (baselineHead s.routes[r] b x))
        else if b.acq.len ≤ offset then (s, .badValue, .none)
        else (s, .ok, .baseline (poolSummary s) (baselineHead s.routes[r] b x) offset
          (((x.blocks.flatMap (readBlock s.store.mem)).drop offset).take (min count (b.acq.len - offset)))) := by
  unfold ownReadBaseline
  rw [routeOf_val]
  dsimp only
  rw [if_neg (by omega), h]
  dsimp only
  rw [hb]
  rfl

end

theorem expected_agrees {expected : Option Nat} {acq : Nat} (h : expected = none ∨ expected = some acq) :
    ¬expected.any (· != acq) = true := by
  rcases h with rfl | rfl <;> simp

end

/-- Settles O21: each read answers what stands. -/
theorem readsChangeNothing : Obligations.ReadsChangeNothing := by
  have hany (code : Nat) (c : Client) (h : craftOnly code = false ∧ notFromLs code = false) : permitted code c = true := by
    cases c <;> simp [permitted, h]
  refine ⟨fun c tag s h => ⟨?_, ?_, ?_, fun w hw => ?_, fun w => ⟨coveredRoutes s, ?_, mem_coveredRoutes s⟩⟩, fun c tag s h => ?_⟩
  · exact request_answered h (hany _ c (by decide)) rfl
  · exact request_answered h (hany _ c (by decide)) rfl
  · exact request_answered h (hany _ c (by decide)) rfl
  · refine request_answered h (hany _ c (by decide)) ?_
    rw [ownReadWindow, windowOf_large hw]
  · refine request_answered h (hany _ c (by decide)) ?_
    rw [ownReadWindow, windowOf_val]
  · refine ⟨fun n hn => ⟨request_answered h (hany _ c (by decide)) ?_,
      fun first => request_answered h (hany _ c (by decide)) ?_⟩, fun r => ?_⟩
    · rw [ownReadRoute, routeOf_large hn]
    · rw [ownReadResult, routeOf_large hn]
    · refine ⟨routeStatus_eq_unused_iff, ?_, request_answered h (hany _ c (by decide)) ?_, fun n hn => ?_,
        fun first hfirst => ⟨fun hbody => ?_, fun b hbody => ?_⟩⟩
      · simp only [routeStatus_eq_baselined_iff, Option.isSome_iff_ne_none]
      · rw [ownReadRoute, routeOf_val]
        rfl
      · refine request_answered h (hany _ c (by decide)) ?_
        rw [ownReadResult, routeOf_val]
        exact if_pos hn
      · refine request_answered h (hany _ c (by decide)) ?_
        rw [ownReadResult, routeOf_val]
        dsimp only
        rw [if_neg (by omega), if_pos (routeStatus_eq_unused_iff.mpr hbody)]
      · refine request_answered h (hany _ c (by decide)) ?_
        have hused : routeStatus s.routes[r] ≠ .unused := by
          rw [ne_eq, routeStatus_eq_unused_iff, hbody]
          exact Option.some_ne_none b
        rw [ownReadResult, routeOf_val]
        dsimp only
        rw [if_neg (by omega), if_neg hused, confirmOf, hbody]

/-- Settles O22: the rows are the sixteen places of the queue from the start on. -/
theorem readQueueShowsTheQueue : Obligations.ReadQueueShowsTheQueue := by
  intro c tag s h
  have hmay : permitted 0x04 c = true := by cases c <;> rfl
  refine ⟨fun start hstart => request_answered h hmay (if_pos (by omega)), fun start hlow hhigh => ?_⟩
  refine ⟨_, request_answered h hmay (if_neg (by omega)), queueRows_length _ _ _, fun i hi hi' => ?_⟩
  dsimp only
  rw [queueRows_getElem hlow _ _ hi hi']
  unfold queueRow
  rw [eligibilityOf_eq] <;> rfl

/-- Settles O23, check by check in the orders of R38 and R98. -/
theorem tracesAndBaselinesAreRead : Obligations.TracesAndBaselinesAreRead := by
  refine ⟨fun s => ⟨rfl, rfl, fun hr => ?_, fun r hr => ⟨?_, fun hp => ?_, fun w data hp => ?_⟩⟩,
    fun c tag acq offset count s h => ?_, fun c tag offset count expected s h => ?_⟩
  · simp [poolSummary, hr]
  · simp [poolSummary, hr]
  · simp [poolSummary, hr, hp]
  · simp [poolSummary, hr, hp]
  · have hmay : permitted 0x09 c = true := by cases c <;> rfl
    refine ⟨fun hcount => request_answered h hmay (ownReadTrace_refused hcount),
      fun h1 h64 => ⟨fun htrace => request_answered h hmay (ownReadTrace_notHeld h1 h64 htrace),
        fun labels dz em cells htrace => ⟨fun hstale => ?_, fun hacq hcut hoffset => ?_, fun hacq hcut hoffset => ?_⟩⟩⟩ <;>
      refine request_answered h hmay ?_ <;> rw [ownReadTrace_held h1 h64 htrace]
    · rw [if_pos (hstale.imp_right writeCutOff_iff.mpr)]
    · rw [if_neg (traceCurrent hacq hcut), if_pos hoffset]
    · rw [if_neg (traceCurrent hacq hcut), if_neg (by omega)]
  · have hmay : permitted 0x0A c = true := by cases c <;> rfl
    refine ⟨fun n hn => request_answered h hmay (by rw [ownReadBaseline, routeOf_large hn]),
      fun r => ⟨fun hcount => request_answered h hmay (ownReadBaseline_refused r hcount), fun h1 h64 =>
        ⟨fun hbody => request_answered h hmay (ownReadBaseline_unused r h1 h64 hbody), fun b hbody =>
          ⟨fun hbase => request_answered h hmay (ownReadBaseline_none r h1 h64 hbody hbase), fun x hbase => ?_⟩⟩⟩⟩
    have hanswer := ownReadBaseline_some (offset := offset) (expected := expected) r h1 h64 hbody hbase
    refine ⟨fun ⟨a, hexpected, hne⟩ => ?_, fun hexpected hoffset => ?_, fun hexpected hoffset => ?_⟩ <;>
      refine request_answered h hmay ?_ <;> rw [hanswer]
    · rw [if_pos (by rw [hexpected]; simpa using hne)]
      rfl
    · rw [if_neg (expected_agrees hexpected), if_pos hoffset]
    · rw [if_neg (expected_agrees hexpected), if_neg (by omega)]
      rfl

end Sys2Proof.Machine
end

section
/-!
O39 to O42: raises, notice settings, reads and acknowledges, and the Result Log.
-/
namespace Sys2Proof.Machine

/-! ### Raises (R161, R165, R166, R173) -/

theorem bits_ne_zero_iff {n : Nat} (s : BitVec n) : (s != 0) = true ↔ ∃ i, i < n ∧ has s i = true := by
  rw [bne_iff_ne]
  constructor
  · intro hne
    by_contra hnone
    refine hne (BitVec.eq_of_getLsbD_eq fun i hi => ?_)
    rw [show (0 : BitVec n).getLsbD i = false from has_zero i]
    exact Bool.eq_false_iff.mpr fun hbit => hnone ⟨i, hi, hbit⟩
  · rintro ⟨i, -, hi⟩ rfl
    exact absurd hi (Bool.eq_false_iff.mp (has_zero i))

theorem anyPending_iff (p : Pending) : anyPending p = true ↔ ∃ k : Notice, kindPending p k = true := by
  unfold anyPending
  simp only [Bool.or_eq_true]
  constructor
  · rintro (((((h | h) | h) | h) | h) | h)
    · exact ⟨.fault 0 true, h⟩
    · exact ⟨.done, h⟩
    · exact ⟨.window, h⟩
    · exact ⟨.mark 0, h⟩
    · exact ⟨.equip, h⟩
    · exact ⟨.log, h⟩
  · rintro ⟨k, h⟩
    cases k with
    | fault r up => exact .inl (.inl (.inl (.inl (.inl h))))
    | done => exact .inl (.inl (.inl (.inl (.inr h))))
    | window => exact .inl (.inl (.inl (.inr h)))
    | mark m => exact .inl (.inl (.inr h))
    | equip => exact .inl (.inr h)
    | log => exact .inr h

/-- A reader within the ring that is one entry below its threshold of at most 255 loses no entry to the write (R173). -/
theorem reachesThreshold_iff {l : ResultLog} {c : Client} (hnext : l.next < 65536) (hring : l.ring.length ≤ 256)
    (hcursor : (perGet l.readers c).cursor < 65536) (hlimit : (perGet l.readers c).threshold ≤ 255) :
    reachesThreshold l c = true ↔ unreadCount l (perGet l.readers c) + 1 = (perGet l.readers c).threshold := by
  unfold reachesThreshold
  simp only [Bool.and_eq_true, Bool.not_eq_true', decide_eq_false_iff_not, decide_eq_true_eq]
  refine and_iff_right_of_imp fun hreach => ?_
  rintro ⟨hfull, hold⟩
  unfold unreadCount at hreach
  unfold oldestNumber at hold
  omega

/-- Settles O39: a raise by the client's switches and the mode of its line. -/
theorem raisesAreTaken : Obligations.RaisesAreTaken := by
  refine ⟨fun n r up => ?_, fun n => ⟨rfl, rfl, rfl, rfl, fun m => rfl⟩,
    fun k n => ⟨raiseNotice_refused, fun htakes => ⟨fun hmode => ?_, fun hmode => ⟨fun hp => ?_, fun hp => ?_⟩⟩⟩,
    fun p => ⟨rfl, rfl, rfl, rfl, fun _ _ => rfl, fun _ => rfl, rfl, rfl, rfl, rfl, fun _ _ => bits_ne_zero_iff p.faults,
      fun _ => bits_ne_zero_iff p.marks, anyPending_iff p⟩, fun p r up i => ?_, fun p m i hm => ?_,
    fun l c hnext hring _ hcursor hlimit => reachesThreshold_iff hnext hring hcursor hlimit⟩
  · unfold takesRaise
    cases n.faultMode <;> simp
  · rw [raiseNotice, if_pos htakes, hmode]
  · rw [raiseNotice, if_pos htakes, hmode]
    exact if_pos hp
  · rw [raiseNotice, if_pos htakes, hmode]
    exact if_neg (Bool.eq_false_iff.mp hp)
  · rw [decide_eq_decide.mpr eq_comm]
    exact has_add p.faults r i r.isLt
  · rw [decide_eq_decide.mpr eq_comm]
    exact has_add p.marks m i hm

/-! ### SET_NOTICES (R160) -/

theorem faultModeOf_eq_none_iff {n : Nat} : faultModeOf n = none ↔ n < 1 ∨ 4 < n := by
  match n with
  | 0 | 1 | 2 | 3 | 4 => decide
  | n + 5 => simp [faultModeOf]

theorem flagOf_eq_none_iff {n : Nat} : flagOf n = none ↔ 1 < n := by
  match n with
  | 0 | 1 => decide
  | n + 2 => simp [flagOf]

theorem flagOf_eq {n : Nat} (h : ¬1 < n) : flagOf n = some (n == 1) := by
  match n with
  | 0 | 1 => rfl
  | n + 2 => exact absurd (by omega) h

theorem clearModeOf_eq_none_iff {n : Nat} : clearModeOf n = none ↔ n < 1 ∨ 2 < n := by
  match n with
  | 0 | 1 | 2 => decide
  | n + 3 => simp [clearModeOf]

theorem lineModeOf_eq_none_iff {n : Nat} : lineModeOf n = none ↔ n < 1 ∨ 2 < n := by
  match n with
  | 0 | 1 | 2 => decide
  | n + 3 => simp [lineModeOf]

theorem polarityOf_eq_none_iff {n : Nat} : polarityOf n = none ↔ n < 1 ∨ 2 < n := by
  match n with
  | 0 | 1 | 2 => decide
  | n + 3 => simp [polarityOf]

theorem positiveByteOf_eq_none_iff {n : Nat} : positiveByteOf n = none ↔ n < 1 ∨ 255 < n := by
  unfold positiveByteOf
  split <;> simp <;> omega

section
variable {α : Type} {f : Nat → Option α} {cur x : α} {o : Option Nat} {n : Nat}

theorem partOf_none_of (ho : o = some n) (hf : f n = none) : partOf f cur o = none := by
  rw [ho]
  exact hf

theorem partOf_bind (h : ∀ n, o = some n → f n ≠ none) : partOf f cur o = some ((o.bind f).getD cur) := by
  cases o with
  | none => rfl
  | some n =>
    cases hn : f n with
    | none => exact absurd hn (h n rfl)
    | some y => simp [partOf, hn]

end

theorem partOf_flag {o : Option Nat} (cur : Bool) (h : ∀ n, o = some n → ¬1 < n) :
    partOf flagOf cur o = some ((o.map (· == 1)).getD cur) := by
  cases o with
  | none => rfl
  | some n => exact flagOf_eq (h n rfl)

theorem partOf_positiveByte {o : Option Nat} (cur : Nat) (h : ∀ n, o = some n → ¬(n < 1 ∨ 255 < n)) :
    partOf positiveByteOf cur o = some (o.getD cur) := by
  cases o with
  | none => rfl
  | some n =>
    have hn := h n rfl
    exact if_pos (by omega)

/-- A refused part refuses the settings or the threshold (R160). -/
theorem noticeParts_refused {p : NoticeParts} (h : NoticeRefused p) (cur : NoticeSettings) (limit : Nat) :
    noticeSettingsOf p cur = none ∨ partOf positiveByteOf limit p.threshold = none := by
  by_contra hboth
  obtain ⟨hsettings, hlimit⟩ := not_or.mp hboth
  obtain ⟨new, hnew⟩ := Option.ne_none_iff_exists'.mp hsettings
  unfold noticeSettingsOf at hnew
  simp only [Option.bind_eq_bind, Option.bind_eq_some_iff] at hnew
  obtain ⟨_, hfault, _, hdone, _, hwindow, _, hequip, _, hlog, _, hclear, _, hline, _, hpolarity, _, hpulse, -⟩ := hnew
  have hno {α : Type} {f : Nat → Option α} {cur x : α} {o : Option Nat} {n : Nat} (hpart : partOf f cur o = some x)
      (ho : o = some n) (hf : f n = none) : False := by
    rw [partOf_none_of ho hf] at hpart
    cases hpart
  rcases h with ⟨n, hn, hr⟩ | ⟨n, hn, hr⟩ | ⟨n, hn, hr⟩ | ⟨n, hn, hr⟩
  · exact hno hfault hn (faultModeOf_eq_none_iff.mpr hr)
  · rcases hn with hn | hn | hn | hn
    · exact hno hdone hn (flagOf_eq_none_iff.mpr hr)
    · exact hno hwindow hn (flagOf_eq_none_iff.mpr hr)
    · exact hno hequip hn (flagOf_eq_none_iff.mpr hr)
    · exact hno hlog hn (flagOf_eq_none_iff.mpr hr)
  · rcases hn with hn | hn | hn
    · exact hno hclear hn (clearModeOf_eq_none_iff.mpr hr)
    · exact hno hline hn (lineModeOf_eq_none_iff.mpr hr)
    · exact hno hpolarity hn (polarityOf_eq_none_iff.mpr hr)
  · rcases hn with hn | hn
    · exact hno hpulse hn (positiveByteOf_eq_none_iff.mpr hr)
    · exact hlimit (partOf_none_of hn (positiveByteOf_eq_none_iff.mpr hr))

theorem noticeSettingsOf_carried {p : NoticeParts} (h : ¬NoticeRefused p) (cur : NoticeSettings) :
    noticeSettingsOf p cur = some (carried p cur) := by
  obtain ⟨hfault, hflags, hmodes, hbytes⟩ : (∀ n, p.faultMode = some n → faultModeOf n ≠ none)
      ∧ (∀ n, p.done = some n ∨ p.window = some n ∨ p.equip = some n ∨ p.log = some n → ¬1 < n)
      ∧ (∀ n, p.clearMode = some n ∨ p.lineMode = some n ∨ p.polarity = some n → ¬(n < 1 ∨ 2 < n))
      ∧ ∀ n, p.pulseLen = some n ∨ p.threshold = some n → ¬(n < 1 ∨ 255 < n) :=
    ⟨fun n hn hr => h (.inl ⟨n, hn, faultModeOf_eq_none_iff.mp hr⟩), fun n hn hr => h (.inr (.inl ⟨n, hn, hr⟩)),
      fun n hn hr => h (.inr (.inr (.inl ⟨n, hn, hr⟩))), fun n hn hr => h (.inr (.inr (.inr ⟨n, hn, hr⟩)))⟩
  unfold noticeSettingsOf
  rw [partOf_bind hfault, partOf_flag _ fun n hn => hflags n (.inl hn), partOf_flag _ fun n hn => hflags n (.inr (.inl hn)),
    partOf_flag _ fun n hn => hflags n (.inr (.inr (.inl hn))), partOf_flag _ fun n hn => hflags n (.inr (.inr (.inr hn))),
    partOf_bind fun n hn hr => hmodes n (.inl hn) (clearModeOf_eq_none_iff.mp hr),
    partOf_bind fun n hn hr => hmodes n (.inr (.inl hn)) (lineModeOf_eq_none_iff.mp hr),
    partOf_bind fun n hn hr => hmodes n (.inr (.inr hn)) (polarityOf_eq_none_iff.mp hr),
    partOf_positiveByte _ fun n hn => hbytes n (.inl hn)]
  rfl

theorem threshold_carried {p : NoticeParts} (h : ¬NoticeRefused p) (cur : Nat) :
    partOf positiveByteOf cur p.threshold = some (p.threshold.getD cur) :=
  partOf_positiveByte cur fun n hn hr => h (.inr (.inr (.inr ⟨n, .inr hn, hr⟩)))

/-- What a change of the line mode makes of the line (R167). -/
theorem applySettings_eq {old new : NoticeState} (hpending : new.pending = old.pending)
    (hsame : old.settings.lineMode = new.settings.lineMode → new.asserted = old.asserted ∧ new.pulse = old.pulse)
    (hpulse : old.settings.lineMode = .level → new.settings.lineMode = .pulse → new.asserted = false ∧ new.pulse = none)
    (hlevel : old.settings.lineMode = .pulse → new.settings.lineMode = .level →
      new.asserted = anyPending old.pending ∧ new.pulse = none) :
    applySettings new.settings old = new := by
  obtain ⟨settings, pending, asserted, pulse⟩ := new
  dsimp only at hpending hsame hpulse hlevel ⊢
  subst hpending
  unfold applySettings
  cases hold : old.settings.lineMode <;> cases hnew : settings.lineMode <;> dsimp only
  case level.pulse =>
    obtain ⟨rfl, rfl⟩ := hpulse hold hnew
    rfl
  case pulse.level =>
    obtain ⟨rfl, rfl⟩ := hlevel hold hnew
    rfl
  all_goals
    obtain ⟨rfl, rfl⟩ := hsame (hold.trans hnew.symm)
    rfl

/-- Settles O40: a request is refused whole or stored whole, the line follows, and a carried threshold makes its raise. -/
theorem setNoticesRules : Obligations.SetNoticesRules := by
  refine ⟨⟨rfl, rfl, rfl, rfl⟩, fun n => ⟨fun h => ?_, fun h => ?_⟩, rfl, fun c tag p s h => ⟨fun hrefused => ?_,
    fun haccepted old new reader hold hreader hsettings hpending hsame hpulse hlevel => ?_⟩⟩
  · rw [lineHigh, h]
  · rw [lineHigh, h]
  · refine request_answered h (by cases c <;> rfl) ?_
    unfold ownSetNotices
    dsimp only
    rcases noticeParts_refused hrefused (perGet s.notices c).settings (perGet s.log.readers c).threshold with hnone | hnone
    · rw [hnone]
    · rw [hnone]
      cases noticeSettingsOf p (perGet s.notices c).settings <;> rfl
  · have hline := applySettings_eq hpending hsame hpulse hlevel
    refine request_answered h (by cases c <;> rfl) ?_
    unfold ownSetNotices
    dsimp only
    rw [noticeSettingsOf_carried haccepted, threshold_carried haccepted, ← hold, ← hreader, ← hsettings]
    dsimp only
    rw [hline]
    by_cases hreach : p.threshold.isSome = true ∧ p.threshold.getD reader.threshold ≤ unreadCount s.log reader
    · rw [if_pos hreach, if_pos (by simpa using hreach), raiseTo_one]
      cases c <;> rfl
    · rw [if_neg hreach, if_neg (by simpa using hreach)]
      rfl

/-! ### READ_NOTICES, ACK_NOTICES, PULSE_TIMER_EXPIRY (R162, R163, R166) -/

theorem clearTo_eq (p : Pending) (n : NoticeState) :
    clearTo p n
      = { n with pending := p, asserted := if n.settings.lineMode = .level then anyPending p else n.asserted } := by
  unfold clearTo
  cases n.settings.lineMode <;> rfl

/-- Settles O41, by the clear mode and the running pulse. -/
theorem noticesAreReadAndAcknowledged : Obligations.NoticesAreReadAndAcknowledged := by
  rintro c tag s n rfl
  refine ⟨fun h => ⟨fun hmode => ?_, fun hmode => ?_, fun a left hleft => ?_⟩, fun hnone => ?_, fun hsome => ?_⟩
  · refine request_answered h (by cases c <;> rfl) ?_
    unfold ownReadNotices
    dsimp only
    rw [hmode]
  · refine request_answered h (by cases c <;> rfl) ?_
    unfold ownReadNotices
    dsimp only
    rw [hmode]
    dsimp only
    rw [clearTo_eq]
    rfl
  · refine request_answered h (by cases c <;> rfl) ?_
    have hack : acknowledged a (perGet s.notices c).pending = left := hleft.symm
    unfold ownAckNotices
    dsimp only
    rw [hack, clearTo_eq]
    rfl
  · show execPulseTimerExpiry c s = _
    unfold execPulseTimerExpiry endPulse
    rw [hnone]
    cases c <;> rfl
  · obtain ⟨k, hk⟩ := Option.ne_none_iff_exists'.mp hsome
    show execPulseTimerExpiry c s = _
    unfold execPulseTimerExpiry endPulse
    rw [hk]
    rfl

/-! ### The Result Log (R169, R171, R172) -/

theorem unreadEntries_length {l : ResultLog} {r : LogReader} (h : unreadCount l r ≤ l.ring.length) :
    ((unreadEntries l r).take 8).length = min 8 (unreadCount l r) := by
  unfold unreadEntries
  rw [List.length_take, List.length_drop]
  omega

/-- The entries of READ_LOG are the next ones from the client's cursor on (R172). -/
theorem unreadEntries_getElem {l : ResultLog} {r : LogReader} (hunread : unreadCount l r ≤ l.ring.length) (hnext : l.next < 65536)
    (hcursor : r.cursor < 65536) (hring : l.ring.length ≤ 256)
    (hnumbers : ∀ i, ∀ h : i < l.ring.length, (l.ring[i]).number = (l.next + 65536 - l.ring.length + i) % 65536)
    {i : Nat} (hi : i < ((unreadEntries l r).take 8).length) :
    (((unreadEntries l r).take 8)[i]).number = (r.cursor + i) % 65536 ∧ ((unreadEntries l r).take 8)[i] ∈ l.ring := by
  have hlen := unreadEntries_length hunread
  refine ⟨?_, List.mem_of_mem_drop (List.mem_of_mem_take (List.getElem_mem hi))⟩
  rw [List.getElem_take]
  simp only [unreadEntries, List.getElem_drop]
  rw [hnumbers]
  unfold unreadCount at hlen hunread ⊢
  omega

/-- Settles O42: the ring by the length of it, and READ_LOG by the numbers of the law of the log. -/
theorem theLogIsWrittenAndRead : Obligations.TheLogIsWrittenAndRead := by
  refine ⟨fun l r hnext hcursor => ?_, fun t b l => ⟨rfl, fun hroom => ⟨?_, fun c => ?_⟩, fun hfull => ⟨?_, fun c => ?_⟩⟩,
    fun c tag s r h hlaw hr => ?_⟩
  · unfold unreadCount
    omega
  · rw [logAfterWrite_ring, if_neg (by omega)]
  · rw [logAfterWrite_readers, readerAfterWrite, if_neg fun hfull => absurd hfull.1 (by omega)]
  · rw [logAfterWrite_ring, if_pos (by omega)]
  · have hcond : (256 ≤ l.ring.length ∧ (perGet l.readers c).cursor = oldestNumber l)
        ↔ (perGet l.readers c).cursor = (l.next + 65280) % 65536 := by
      unfold oldestNumber
      rw [hfull, show l.next + 65536 - 256 = l.next + 65280 by omega]
      exact and_iff_right (le_refl 256)
    rw [logAfterWrite_readers, readerAfterWrite, if_congr hcond rfl rfl]
  · obtain ⟨hring, hnext, hnumbers, hreaders⟩ := hlaw
    obtain ⟨hcursor, hunread, -, -⟩ := hreaders c
    rw [← hr] at hcursor hunread
    refine ⟨(unreadEntries s.log r).take 8, unreadEntries_length hunread,
      fun i hi => unreadEntries_getElem hunread hnext hcursor hring hnumbers hi,
      request_answered h (by cases c <;> rfl) ?_⟩
    unfold ownReadLog
    rw [← hr]
    rfl

end Sys2Proof.Machine
end

section
/-!
O37, O38 and O52: the edits of a window, the requests of the clock and the ticks. The windows change together and what opened or
closed is told once, by `changeWindows_told`.
-/
namespace Sys2Proof.Machine

section
variable {s t : State}

/-! ### Entries written one after another -/

/-- `t` is `s` with the entries `bs` written to its log, and their raises taken. -/
structure Written (bs : List LogBody) (s t : State) : Prop where
  only : t = { s with log := t.log, notices := t.notices }
  logged : LoggedAt s.clock.now s t bs
  raises : ∀ k, perGet t.notices k = raisesOf (logRaises s.clock.now bs s.log k) (perGet s.notices k)

theorem logWrite_only (b : LogBody) (s : State) :
    logWrite b s = { s with log := (logWrite b s).log, notices := (logWrite b s).notices } := rfl

theorem logWrites_written (bs : List LogBody) (s : State) : Written bs s (logWrites bs s) := by
  induction bs generalizing s with
  | nil => exact ⟨rfl, rfl, fun _ => rfl⟩
  | cons b bs ih =>
    have hrest : Written bs (logWrite b s) (logWrites bs (logWrite b s)) := ih (logWrite b s)
    have hcons : logWrites (b :: bs) s = logWrites bs (logWrite b s) := rfl
    rw [hcons]
    generalize logWrites bs (logWrite b s) = t at hrest
    refine ⟨?_, hrest.logged, fun k => ?_⟩
    · have honly := hrest.only
      rw [logWrite_only b s] at honly
      exact honly
    · rw [hrest.raises k, logWrite_raises]
      exact (raisesOf_append _ _ _).symm

/-- How a clock or window event tells the Test Queue of its entries `bs`: by a coverage report, if there are any (R149). -/
structure Told (bs : List LogBody) (s t : State) : Prop where
  only : t = { s with log := t.log, notices := t.notices }
  logged : LoggedAt s.clock.now s t bs
  raises : ∀ k, perGet t.notices k
    = raisesOf (logRaises s.clock.now bs s.log k ++ if bs = [] then [] else [.window]) (perGet s.notices k)

theorem EngineFixed.told {bs : List LogBody} (h : EngineFixed s) (ht : Told bs s t) : EngineFixed t := by
  rw [ht.only]
  exact h

/-- The windows take their new states and what opened or closed is told. -/
theorem changeWindows_told (cause : CloseCause) (new : Vector Window 8) (s : State) {bs : List LogBody}
    (hbs : windowChanges cause s.windows new = bs) :
    ∃ t, Told bs { s with windows := new } t ∧ (bs = [] → changeWindows cause new s = t)
      ∧ (bs ≠ [] → changeWindows cause new s = coverageReport t) := by
  subst hbs
  rcases changeWindows_cases cause new s with ⟨hnone, k⟩ | ⟨hsome, k⟩
  · rw [hnone]
    exact ⟨{ s with windows := new }, ⟨rfl, rfl, fun _ => rfl⟩, fun _ => k, fun h => absurd rfl h⟩
  · have hwritten := logWrites_written (windowChanges cause s.windows new) { s with windows := new }
    generalize logWrites (windowChanges cause s.windows new) { s with windows := new } = u at hwritten k
    refine ⟨raiseAll .window u, ⟨?_, hwritten.logged, fun c => ?_⟩, fun h => absurd h hsome, fun _ => k⟩
    · exact congrArg (fun v : State => { v with notices := (raiseAll .window u).notices }) hwritten.only
    · rw [if_neg hsome, raisesOf_append, ← hwritten.raises c]
      exact perGet_raiseTo _ _ _ _

/-! ### SET_WINDOW (R151 to R154) -/

theorem windowSettingsOf_refused {d : WindowDef} (h : 1 < d.enabled ∨ 31 < d.hour ∨ 63 < d.minute ∨ d.duration = 0) :
    windowSettingsOf d = none := by
  unfold windowSettingsOf
  rcases h with henabled | hrange
  · rw [flagOf_eq_none_iff.mpr henabled]
  · cases flagOf d.enabled with
    | none => rfl
    | some on => exact if_pos hrange

theorem windowSettingsOf_accepted {d : WindowDef} (henabled : d.enabled ≤ 1) (hhour : d.hour ≤ 31) (hminute : d.minute ≤ 63)
    (hduration : 1 ≤ d.duration) :
    windowSettingsOf d = some
      { enabled := d.enabled == 1, hour := d.hour, minute := d.minute, factors := d.factors
        weekdays := d.weekdays, duration := min 720 d.duration, routes := d.routes } := by
  unfold windowSettingsOf
  rw [flagOf_eq (by omega)]
  exact if_neg (by omega)

theorem acceptWindow_window (i : WindowNo) (w : WindowSettings) (s : State) :
    (acceptWindow i w s).windows[i] = editedWindow w s.windows[i] := by
  rw [(acceptWindow_portOnly i w s).windows]
  exact editedWindows_same i w s

theorem editedWindow_closed (w : WindowSettings) {old : Window} (h : old.remaining = none) :
    editedWindow w old = { settings := w, remaining := none } := by
  simp [editedWindow, h]

theorem editedWindow_open {w : WindowSettings} {old : Window} {n : Nat} (hon : w.enabled = true) (h : old.remaining = some n) :
    editedWindow w old = { settings := w, remaining := some (min w.duration n) } := by
  simp [editedWindow, hon, h]

theorem ownSetWindow_accepted {d : WindowDef} {ws : WindowSettings} (hws : windowSettingsOf d = some ws) (w : WindowNo)
    {next : Option Nat} (hnext : (editedWindow ws s.windows[w]).remaining = next) :
    ownSetWindow w d s
      = (acceptWindow w ws s, if 720 < d.duration then .okClamped else .ok, .window ws next) := by
  unfold ownSetWindow
  rw [windowOf_val, hws]
  dsimp only
  rw [acceptWindow_window, hnext]
  rfl

/-- Exactly the window that the edit disables has closed. -/
theorem windowChanges_edited {i : WindowNo} {w : WindowSettings} (hopen : s.windows[i].remaining ≠ none)
    (hdisabled : w.enabled = false) : windowChanges .edited s.windows (editedWindows i w s) = [.windowClose i .edited] := by
  have honly : ∀ i : WindowNo,
      windowNumbers.filterMap (fun j => if j = i then some (LogBody.windowClose j .edited) else none) = [.windowClose i .edited] := by
    decide
  rw [← honly i]
  unfold windowChanges
  refine List.filterMap_congr fun j _ => ?_
  by_cases hij : i = j
  · subst hij
    obtain ⟨n, hn⟩ := Option.ne_none_iff_exists'.mp hopen
    rw [editedWindows_same, editedWindow, hdisabled, hn]
    exact (if_pos rfl).symm
  · have hji : ¬j = i := fun h => hij h.symm
    rw [editedWindows_other hij, if_neg hji]
    cases s.windows[j].remaining <;> rfl

end

/-- Settles O37: a CLOSED window, an OPEN one that stays open, and one that the edit closes. -/
theorem setWindowRules : Obligations.SetWindowRules := by
  intro c tag d s h hc
  have hmay : permitted 0x0E c = true := by
    cases c with
    | ls => exact absurd rfl hc
    | scA | scB | cr => rfl
  refine ⟨fun n hn => request_answered h hmay ?_,
    fun henabled hhour hminute hduration w ws status hws hstatus => ⟨fun hclosed => ?_, fun n hn => ?_⟩⟩
  · unfold ownSetWindow
    rcases hn with hn | hn
    · rw [windowOf_large hn]
    · rw [windowSettingsOf_refused hn]
      cases windowOf n <;> rfl
  · have hsettings : windowSettingsOf d = some ws := hws ▸ windowSettingsOf_accepted henabled hhour hminute hduration
    have hnext := editedWindow_closed ws hclosed
    rw [hstatus]
    refine request_answered h hmay ((ownSetWindow_accepted hsettings w (congrArg Window.remaining hnext)).trans ?_)
    rcases acceptWindow_cases w ws s with ⟨⟨hopen, -⟩, -⟩ | ⟨⟨hopen, -⟩, -⟩ | ⟨-, k⟩
    · rw [hclosed] at hopen
      cases hopen
    · rw [hclosed] at hopen
      cases hopen
    · rw [k, editedWindows, hnext]
  · have hsettings : windowSettingsOf d = some ws := hws ▸ windowSettingsOf_accepted henabled hhour hminute hduration
    have hroutes : ws.routes = d.routes := by rw [hws]
    have hopen : s.windows[w].remaining.isSome = true := by
      rw [hn]
      rfl
    rw [hstatus]
    have hkept (hon : d.enabled = 1) : ws.enabled = true := by
      rw [hws, hon]
      rfl
    have hstays (hon : d.enabled = 1) := editedWindow_open (hkept hon) hn
    refine ⟨fun hon hquiet => ?_, fun hon hdiffers => ?_, fun hoff => ?_⟩
    · refine request_answered h hmay ((ownSetWindow_accepted hsettings w (congrArg Window.remaining (hstays hon))).trans ?_)
      rcases acceptWindow_cases w ws s with ⟨⟨-, hdisabled⟩, -⟩ | ⟨⟨-, -, hne⟩, k⟩ | ⟨-, k⟩
      · rw [hkept hon] at hdisabled
        cases hdisabled
      · have hfixed : EngineFixed s := hquiet.resolve_left fun hsame => hne (hsame.trans hroutes.symm)
        rw [k, coverageReport_of_fixed (s := { s with windows := editedWindows w ws s }) hfixed, editedWindows, hstays hon]
      · rw [k, editedWindows, hstays hon]
    · refine request_answered h hmay ((ownSetWindow_accepted hsettings w (congrArg Window.remaining (hstays hon))).trans ?_)
      rcases acceptWindow_cases w ws s with ⟨⟨-, hdisabled⟩, -⟩ | ⟨-, k⟩ | ⟨hsame, -⟩
      · rw [hkept hon] at hdisabled
        cases hdisabled
      · rw [k, editedWindows, hstays hon]
      · rcases hsame with hnone | ⟨-, hsame⟩
        · rw [hnone] at hopen
          cases hopen
        · exact absurd (hsame.trans hroutes) hdiffers
    · have hdisabled : ws.enabled = false := by
        rw [hws, hoff]
        rfl
      have hcloses : editedWindow ws s.windows[w] = { settings := ws, remaining := none } := by simp [editedWindow, hdisabled]
      have hanswer := ownSetWindow_accepted hsettings w (congrArg Window.remaining hcloses)
      obtain ⟨t, htold, -, hreport⟩ := changeWindows_told .edited (editedWindows w ws s) s
        (windowChanges_edited (by rw [hn]; exact Option.some_ne_none n) hdisabled)
      have haccept : acceptWindow w ws s = coverageReport t := by
        rcases acceptWindow_cases w ws s with ⟨-, k⟩ | ⟨⟨-, hon, -⟩, -⟩ | ⟨hsame, -⟩
        · rw [k]
          exact hreport (List.cons_ne_nil _ _)
        · rw [hdisabled] at hon
          cases hon
        · rcases hsame with hnone | ⟨hon, -⟩
          · rw [hnone] at hopen
            cases hopen
          · rw [hdisabled] at hon
            cases hon
      rw [haccept] at hanswer
      have hwindows : editedWindows w ws s = s.windows.set w { settings := ws, remaining := none } := by
        rw [editedWindows, hcloses]
      refine ⟨t, fun hfixed => ?_, request_answered h hmay hanswer, ?_, htold.logged, fun k => ?_⟩
      · rw [coverageReport_of_fixed (EngineFixed.told (s := { s with windows := editedWindows w ws s }) hfixed htold)] at hanswer
        exact request_answered h hmay hanswer
      · rw [← hwindows]
        exact htold.only
      · rw [htold.raises k, if_neg (List.cons_ne_nil _ _)]
        simp [logRaises]

/-! ### The requests of the clock (R141 to R143) -/

section
variable {s : State}

/-- The windows of a STOPPED clock. -/
def closedWindows (s : State) : Vector Window 8 := mapTable (fun w => { w with remaining := none }) s.windows

theorem closedWindows_at (s : State) (w : WindowNo) :
    (closedWindows s)[w] = { settings := s.windows[w].settings, remaining := none } := by
  rw [closedWindows, mapTable_getFin]

/-- Every OPEN window closes, in increasing number (R143). -/
theorem windowChanges_stopped (s : State) :
    windowChanges .clockStopped s.windows (closedWindows s)
      = (windowNumbers.filter fun w => s.windows[w].remaining.isSome).map fun w => .windowClose w .clockStopped := by
  have hmap (ws : List WindowNo) : (ws.map fun w => LogBody.windowClose w .clockStopped)
      = ws.filterMap fun w => some (LogBody.windowClose w .clockStopped) := (congrFun List.filterMap_eq_map ws).symm
  unfold windowChanges
  rw [hmap, List.filterMap_filter]
  refine List.filterMap_congr fun w _ => ?_
  rw [closedWindows_at]
  cases s.windows[w].remaining <;> rfl

theorem mem_windowNumbers (w : WindowNo) : w ∈ windowNumbers := by
  revert w
  decide

theorem anyOpen_iff : (windowNumbers.filter fun w => s.windows[w].remaining.isSome) ≠ []
    ↔ ∃ w : WindowNo, s.windows[w].remaining ≠ none := by
  simp only [ne_eq, List.filter_eq_nil_iff, not_forall, Option.not_isSome_iff_eq_none]
  exact ⟨fun ⟨w, _, hw⟩ => ⟨w, hw⟩, fun ⟨w, hw⟩ => ⟨w, mem_windowNumbers w, hw⟩⟩

end

/-- Settles O38: the refusals, the settings, the start, and the stop with the windows that it closes. -/
theorem clockRequests : Obligations.ClockRequests := by
  intro c tag s h hc
  have hmay (code : Nat) (hcraft : craftOnly code = false) : permitted code c = true := permitted_of_ne_ls hc hcraft
  refine ⟨fun day hour minute start => ⟨fun hrange => request_answered h (hmay _ rfl) (if_pos hrange), fun hhour hminute =>
    ⟨fun hrun => request_answered h (hmay _ rfl) ?_, fun hstop now bs hnow hbs => ?_⟩⟩,
    fun hrun => request_answered h (hmay _ rfl) ?_, fun hstop => ⟨request_answered h (hmay _ rfl) ?_, ?_⟩, fun hrun bs hbs => ?_⟩
  · unfold ownSetClock
    rw [if_neg (by omega), if_pos hrun]
  · have hset : ownSetClock c day hour minute start s
        = (logWrites bs { s with clock := { now := now, running := start } }, .ok, .clockRun now start) := by
      unfold ownSetClock
      rw [if_neg (by omega), if_neg (by rw [hstop]; decide), hbs, hnow]
      cases start
      · show (logWrite (.clock c .set) { s with
            clock := { now := { day, hour, minute, second := 0 }, running := s.clock.running } }, Status.ok,
          ReplyData.clockRun { day, hour, minute, second := 0 } s.clock.running) = _
        rw [hstop]
        rfl
      · rfl
    have hwritten := logWrites_written bs { s with clock := { now := now, running := start } }
    exact ⟨_, request_answered h (hmay _ rfl) hset, hwritten.only, hwritten.logged, hwritten.raises⟩
  · unfold ownStartClock
    rw [hrun]
    rfl
  · exact if_neg (by rw [hstop]; decide)
  · have hstart : ownStartClock c s = (startClock c s, .ok, .clock s.clock.now) := by
      unfold ownStartClock
      rw [hstop]
      rfl
    exact ⟨_, request_answered h (hmay _ rfl) hstart, rfl, rfl, fun k => logWrite_raises _ _ k⟩
  · generalize hu : logWrite (.clock c .stopped) { s with clock := { s.clock with running := false } } = u
    have hclock : u.clock = { s.clock with running := false } := by
      rw [← hu]
      rfl
    have hwindows : u.windows = s.windows := by
      rw [← hu]
      rfl
    have hchanges : windowChanges .clockStopped u.windows (closedWindows s)
        = (windowNumbers.filter fun w => s.windows[w].remaining.isSome).map fun w => .windowClose w .clockStopped := by
      rw [hwindows]
      exact windowChanges_stopped s
    obtain ⟨t, htold, hquiet, hreport⟩ := changeWindows_told .clockStopped (closedWindows s) u hchanges
    have hanswer : ownStopClock c s = (changeWindows .clockStopped (closedWindows s) u, .ok, .clockRun s.clock.now false) := by
      have hafter : (changeWindows .clockStopped (closedWindows s) u).clock = { s.clock with running := false } := by
        rw [(changeWindows_portOnly _ _ _).clock]
        exact hclock
      have hclosed : mapTable (fun w : Window => { w with remaining := none }) u.windows = closedWindows s := by
        rw [hwindows]
        rfl
      unfold ownStopClock
      rw [if_pos hrun]
      dsimp only
      rw [hu, hclosed, hafter]
    have hempty : ((windowNumbers.filter fun w => s.windows[w].remaining.isSome).map
        fun w => LogBody.windowClose w .clockStopped) ≠ [] ↔ ∃ w : WindowNo, s.windows[w].remaining ≠ none := by
      rw [ne_eq, List.map_eq_nil_iff]
      exact anyOpen_iff
    have hfixedTold (hfixed : EngineFixed s) : changeWindows .clockStopped (closedWindows s) u = t := by
      by_cases hany : ((windowNumbers.filter fun w => s.windows[w].remaining.isSome).map
          fun w => LogBody.windowClose w .clockStopped) = []
      · exact hquiet hany
      · have hfixedU : EngineFixed { u with windows := closedWindows s } := by
          rw [← hu]
          exact hfixed
        rw [hreport hany, coverageReport_of_fixed (EngineFixed.told hfixedU htold)]
    refine ⟨t, fun hor => ?_, fun hany => ?_, ?_, fun w => ?_, ?_, fun k => ?_⟩
    · refine request_answered h (hmay _ rfl) (hanswer.trans ?_)
      rcases hor with hfixed | hnone
      · rw [hfixedTold hfixed]
      · rw [hquiet (not_not.mp fun hne => (hempty.mp hne).elim fun w hw => hw (hnone w))]
    · refine request_answered h (hmay _ rfl) (hanswer.trans ?_)
      rw [hreport (hempty.mpr hany)]
    · have honly := htold.only
      rw [← hu] at honly
      rw [honly]
      rfl
    · have hclosed : t.windows = closedWindows s := (congrArg State.windows htold.only).trans rfl
      rw [hclosed]
      exact closedWindows_at s w
    · have hlogged := htold.logged
      rw [← hu] at hlogged
      rw [hbs]
      exact hlogged
    · have hbefore : perGet u.notices k = raisesOf (logRaise s.log k) (perGet s.notices k) := by
        rw [← hu]
        exact logWrite_raises _ _ k
      have hlog : u.log = logAfterWrite s.clock.now (.clock c .stopped) s.log := by
        rw [← hu]
        rfl
      have hraises := htold.raises k
      dsimp only at hraises
      rw [hclock, hlog, hbefore, ← raisesOf_append, ← List.append_assoc] at hraises
      have hreports : (if ((windowNumbers.filter fun w => s.windows[w].remaining.isSome).map
            fun w => LogBody.windowClose w .clockStopped) = [] then [] else [Notice.window])
          = if ∃ w : WindowNo, s.windows[w].remaining ≠ none then [Notice.window] else [] := by
        by_cases hany : ∃ w : WindowNo, s.windows[w].remaining ≠ none
        · rw [if_pos hany, if_neg (hempty.mpr hany)]
        · rw [if_neg hany, if_pos (not_not.mp fun hne => hany (hempty.mp hne))]
      rw [hraises, hbs, hreports]
      rfl

/-! ### Ticks (R139, R149) -/

/-- One second later in the words of R139. -/
theorem nextSecond_eq {t now : Time} (hcarry : t.second < 59 → now = { t with second := t.second + 1 })
    (hroll : t.second = 59 →
      (t.minute < 59 → now = { t with minute := t.minute + 1, second := 0 })
      ∧ (t.minute = 59 →
        (t.hour < 23 → now = { t with hour := t.hour + 1, minute := 0, second := 0 })
        ∧ (t.hour = 23 → now = { day := (t.day + 1) % 65536, hour := 0, minute := 0, second := 0 })))
    (hsecond : t.second ≤ 59) (hminute : t.minute ≤ 59) (hhour : t.hour ≤ 23) :
    nextSecond t = now ∧ (now.second = 0 ↔ t.second = 59) := by
  unfold nextSecond
  by_cases hs : t.second < 59
  · rw [if_pos (by omega), hcarry hs]
    exact ⟨rfl, ⟨fun h => absurd h (Nat.succ_ne_zero _), fun h => by omega⟩⟩
  · obtain ⟨hm59, hcarries⟩ := hroll (by omega)
    rw [if_neg (by omega)]
    by_cases hm : t.minute < 59
    · rw [if_pos (by omega), hm59 hm]
      exact ⟨rfl, ⟨fun _ => by omega, fun _ => rfl⟩⟩
    · obtain ⟨hh23, hday⟩ := hcarries (by omega)
      rw [if_neg (by omega)]
      by_cases hh : t.hour < 23
      · rw [if_pos (by omega), hh23 hh]
        exact ⟨rfl, ⟨fun _ => by omega, fun _ => rfl⟩⟩
      · rw [if_neg (by omega), hday (by omega)]
        exact ⟨rfl, ⟨fun _ => by omega, fun _ => rfl⟩⟩

/-- What a rollover opened or closed (R149). -/
theorem windowChanges_expired (old new : Vector Window 8) :
    windowChanges .expired old new
      = windowNumbers.filterMap fun w =>
          if old[w].remaining = none ∧ new[w].remaining ≠ none then some (LogBody.windowOpen w)
          else if old[w].remaining ≠ none ∧ new[w].remaining = none then some (.windowClose w .expired)
          else none := by
  unfold windowChanges
  refine List.filterMap_congr fun w _ => ?_
  generalize old[w].remaining = a
  generalize new[w].remaining = b
  cases a <;> cases b <;> simp

theorem exec_windowCountExpiry (w : WindowNo) (s : State) :
    exec (.windowCountExpiry w) s
      = if (s.clock.running = true ∧ (nextSecond s.clock.now).second = 0)
            ∧ s.windows[w].settings.enabled = true ∧ s.windows[w].remaining = some 1 then exec .tick s
        else .next s := by
  show execWindowCountExpiry w s = if _ then execTick s else _
  unfold execWindowCountExpiry execTick rolloverDue
  simp only [Bool.and_eq_true, beq_iff_eq, and_assoc]
  split <;> rfl

theorem exec_minuteRollover (s : State) :
    exec .minuteRollover s
      = if s.clock.running = true ∧ (nextSecond s.clock.now).second = 0 then exec .tick s else .next s := by
  show execMinuteRollover s = if _ then execTick s else _
  unfold execMinuteRollover execTick rolloverDue
  simp only [Bool.and_eq_true, beq_iff_eq]
  split <;> rfl

/-- Settles O52: a tick by the carries of the clock, and a rollover by the windows that change at it. -/
theorem ticksOfTheClock : Obligations.TicksOfTheClock := by
  refine ⟨rfl, fun s => ⟨fun hstop => ?_, fun hrun now hcarry hroll hsecond hminute hhour => ?_⟩⟩
  · have hnot : ¬s.clock.running = true := by
      rw [hstop]
      decide
    refine ⟨?_, ?_, fun w => ?_⟩
    · show Host.Outcome.next (tickClock s) = _
      rw [tickClock, if_neg hnot]
    · rw [exec_minuteRollover, if_neg fun h => hnot h.1]
    · rw [exec_windowCountExpiry, if_neg fun h => hnot h.1.1]
  · obtain ⟨hnow, hrolls⟩ := nextSecond_eq hcarry hroll hsecond hminute hhour
    have htick : exec .tick s = .next (tickClock s) := rfl
    have hclock : { s.clock with now := now } = ({ now := now, running := true } : Clock) := by rw [← hrun]
    refine ⟨fun hs => ?_, fun hs => ⟨?_, fun w => ⟨fun henabled hcount => ?_, fun hnot => ?_⟩, fun windows bs hwindows hbs => ?_⟩⟩
    · have hzero : (nextSecond s.clock.now).second ≠ 0 := by
        rw [hnow]
        exact fun hz => absurd (hrolls.mp hz) (by omega)
      refine ⟨?_, ?_, fun w => ?_⟩
      · rcases tickClock_cases s with ⟨hstop, -⟩ | ⟨-, -, k⟩ | ⟨-, hz, -⟩ | ⟨-, hz, -⟩
        · rw [hrun] at hstop
          cases hstop
        · rw [htick, k, hnow, hclock]
        · exact absurd hz hzero
        · exact absurd hz hzero
      · rw [exec_minuteRollover, if_neg fun h => hzero h.2]
      · rw [exec_windowCountExpiry, if_neg fun h => hzero h.1.2]
    · rw [exec_minuteRollover, if_pos ⟨hrun, hnow ▸ hrolls.mpr hs⟩]
    · rw [exec_windowCountExpiry, if_pos ⟨⟨hrun, hnow ▸ hrolls.mpr hs⟩, henabled, hcount⟩]
    · rw [exec_windowCountExpiry, if_neg]
      rintro ⟨-, henabled, hcount⟩
      rcases hnot with hdisabled | hne
      · rw [hdisabled] at henabled
        cases henabled
      · exact hne hcount
    · have hnew : rolledWindows now s = windows := by
        refine Vector.ext fun i hi => ?_
        exact (mapTable_getFin _ _ ⟨i, hi⟩).trans (hwindows ⟨i, hi⟩).symm
      have hzero : (nextSecond s.clock.now).second = 0 := hnow ▸ hrolls.mpr hs
      refine ⟨fun hheld => ?_, fun hshelf => ?_⟩
      · rcases tickClock_cases s with ⟨hstop, -⟩ | ⟨-, hne, -⟩ | ⟨-, -, -, k⟩ | ⟨-, -, hnone, -⟩
        · rw [hrun] at hstop
          cases hstop
        · exact absurd hzero hne
        · rw [htick, k, hnow, hclock, hnew]
        · exact absurd hnone hheld
      · rcases tickClock_cases s with ⟨hstop, -⟩ | ⟨-, hne, -⟩ | ⟨-, -, hheld, -⟩ | ⟨-, -, -, k⟩
        · rw [hrun] at hstop
          cases hstop
        · exact absurd hzero hne
        · exact absurd hshelf hheld
        · rw [hnow, hclock, hnew] at k
          have hchanges := (windowChanges_expired s.windows windows).trans hbs.symm
          obtain ⟨t, htold, hquiet, hreport⟩ := changeWindows_told .expired windows
            { s with clock := { now := now, running := true } } hchanges
          rw [htick, k]
          refine ⟨t, _, fun hor => ?_, fun hany => hreport hany, rfl, htold.only, htold.logged, htold.raises⟩
          rcases hor with hnone | hfixed
          · exact hquiet hnone
          · by_cases hnone : bs = []
            · exact hquiet hnone
            · rw [hreport hnone]
              exact coverageReport_of_fixed (EngineFixed.told
                (s := { s with clock := { now := now, running := true }, windows := windows }) hfixed htold)

end Sys2Proof.Machine
end

section
/-! O43: the device settings, the Equipment Record and the request for a craft reset. -/
namespace Sys2Proof.Machine

section
variable {p : DeviceParts} {cur : Device}

theorem barredValid_eq_false_iff {o : Option (Nat × Nat)} :
    barredValid o = false ↔ ∃ first last, o = some (first, last) ∧ (last < first ∨ 47 < last) := by
  cases o with
  | none => simp [barredValid]
  | some b =>
    obtain ⟨first, last⟩ := b
    simp [barredValid]
    omega

/-- The whole SET_DEVICE is refused or all its parts are taken (R23, R80). -/
theorem deviceOf_cases (p : DeviceParts) (cur : Device) :
    (DeviceRefused p ∧ deviceOf p cur = none)
      ∨ (¬DeviceRefused p ∧ deviceOf p cur = some
        { live := p.live.getD cur.live, timeout := p.timeout.getD cur.timeout, barred := p.barred.getD cur.barred }) := by
  have hany (o : Option Nat) (n : Nat) : o.any (fun m => decide (n < m)) = true ↔ ∃ m, o = some m ∧ n < m := by
    cases o <;> simp
  have hbarred : (!barredValid (p.barred.getD none)) = true
      ↔ ∃ first last, p.barred = some (some (first, last)) ∧ (last < first ∨ 47 < last) := by
    rw [Bool.not_eq_true', barredValid_eq_false_iff]
    cases p.barred <;> simp
  have hrefused : (p.live.any (fun n => decide (3610 < n)) || p.timeout.any (fun n => decide (4 < n))
      || !barredValid (p.barred.getD none)) = true ↔ DeviceRefused p := by
    unfold DeviceRefused
    rw [Bool.or_eq_true, Bool.or_eq_true, hany, hany, hbarred, or_assoc]
  unfold deviceOf
  by_cases h : DeviceRefused p
  · exact .inl ⟨h, if_pos (hrefused.mpr h)⟩
  · exact .inr ⟨h, if_neg fun hr => h (hrefused.mp hr)⟩

theorem ownSetDevice_refused (h : DeviceRefused p) (s : State) : ownSetDevice p s = (s, .badValue, .none) := by
  rcases deviceOf_cases p s.device with ⟨-, hnone⟩ | ⟨hnot, -⟩
  · rw [ownSetDevice, hnone]
  · exact absurd h hnot

theorem ownSetDevice_accepted (h : ¬DeviceRefused p) {s t : State}
    (ht : t = { s with device := { live := p.live.getD s.device.live, timeout := p.timeout.getD s.device.timeout
                                   barred := p.barred.getD s.device.barred } }) :
    ownSetDevice p s
      = (if p.barred.getD s.device.barred = s.device.barred then t else routeReport (isClosed s) t, .ok, .none) := by
  rcases deviceOf_cases p s.device with ⟨hrefused, -⟩ | ⟨-, hsome⟩
  · exact absurd hrefused h
  · rw [ownSetDevice, hsome, ht]

end

/-! ### CLEAR_EQUIPMENT (R22) -/

section
variable {s : State}

theorem ownClearEquipment_standing (c : Client) (h : s.engine.state ≠ .faulted) :
    ownClearEquipment c s = ({ s with equip := none }, .ok, .none) := if_neg h

theorem ownClearEquipment_refused {c : Client} (hc : c ≠ .cr) (h : s.engine.state = .faulted) :
    ownClearEquipment c s = (s, .notPermitted, .none) := by
  unfold ownClearEquipment
  rw [if_pos h, if_neg hc]

theorem ownClearEquipment_faulted (h : s.engine.state = .faulted) :
    ownClearEquipment .cr s = (leaveFaulted { s with equip := none }, .ok, .none) := by
  unfold ownClearEquipment
  rw [if_pos h, if_pos rfl]

theorem leaveFaulted_writing (h : writeInFlight s = true) :
    leaveFaulted { s with equip := none } = { s with equip := none, engine := engineFree .recovering none s.engine } :=
  if_pos h

theorem leaveFaulted_homes (h : writeInFlight s = false) (hswitch : s.switch ≠ .standing .home) :
    leaveFaulted { s with equip := none } = { s with
      equip := none, switch := .moving .home
      engine := engineFree .recovering (some (.switch (timeoutMs s.device.timeout))) s.engine } := by
  have hwriting : ¬writeInFlight { s with equip := none } = true := Bool.eq_false_iff.mp h
  rw [leaveFaulted, if_neg hwriting]
  exact if_neg hswitch

theorem leaveFaulted_atHome (h : writeInFlight s = false) (hswitch : s.switch = .standing .home) :
    leaveFaulted { s with equip := none } = handOut { s with equip := none, engine := engineFree .idle none s.engine } := by
  have hwriting : ¬writeInFlight { s with equip := none } = true := Bool.eq_false_iff.mp h
  rw [leaveFaulted, if_neg hwriting]
  exact if_pos hswitch

end

/-- Settles O43, request by request. -/
theorem deviceRequests : Obligations.DeviceRequests := by
  refine ⟨rfl, fun c tag s h hc => ?_⟩
  have hmay (code : Nat) (hcraft : craftOnly code = false) : permitted code c = true := permitted_of_ne_ls hc hcraft
  refine ⟨fun p hrefused => request_answered h (hmay _ rfl) (ownSetDevice_refused hrefused s),
    fun p t haccepted ht => ⟨fun hquiet => ?_, fun hchanged => ?_⟩,
    fun hstanding => request_answered h (hmay _ rfl) (ownClearEquipment_standing c hstanding),
    fun hfaulted => ⟨fun hne => request_answered h (hmay _ rfl) (ownClearEquipment_refused hne hfaulted), ?_⟩, ?_⟩
  · refine request_answered h (hmay _ rfl) ((ownSetDevice_accepted haccepted ht).trans ?_)
    rcases hquiet with hnone | hsame | hfixed
    · rw [if_pos (by rw [hnone]; rfl)]
    · rw [if_pos (by rw [hsame]; rfl)]
    · have hfixed' : EngineFixed t := by
        rw [ht]
        exact hfixed
      rw [routeReport_of_fixed _ hfixed', ite_self]
  · refine request_answered h (hmay _ rfl) ((ownSetDevice_accepted haccepted ht).trans ?_)
    rw [if_neg hchanged]
  · rintro rfl
    have hcleared := ownClearEquipment_faulted hfaulted
    refine ⟨fun hwriting => request_answered h (hmay _ rfl) (hcleared.trans ?_),
      fun hidle haway => request_answered h (hmay _ rfl) (hcleared.trans ?_), fun hidle hhome => ⟨_,
        request_answered h (hmay _ rfl) (hcleared.trans ?_), fun hnone => ?_, rfl⟩⟩
    · rw [leaveFaulted_writing hwriting]
    · rw [leaveFaulted_homes hidle haway]
    · rw [leaveFaulted_atHome hidle hhome]
    · exact handOut_of_noneEligible hnone (fun _ => rfl) fun _ hx => hx
  · rintro rfl
    exact request_answered h rfl rfl

end Sys2Proof.Machine
end

section
/-! O44 and O45: the switch arrives, and the timers that fail. -/
namespace Sys2Proof.Machine

section
variable {s : State}

/-! ### Arrivals (R1, R8, R18) -/

theorem exec_settled_elsewhere {p : RouteNo} (h : s.switch ≠ .moving (.port p)) : exec (.settled p) s = .next s := if_neg h

theorem exec_settled {p : RouteNo} (h : s.switch = .moving (.port p)) :
    exec (.settled p) s = .next (if s.engine.state = .switching ∧ s.engine.running.map Running.route = some p then
      startLiveCheck { s with switch := .standing (.port p) } else { s with switch := .standing (.port p) }) := if_pos h

theorem exec_homeReached_elsewhere (h : s.switch ≠ .moving .home) : exec .homeReached s = .next s := if_neg h

theorem exec_homeReached (h : s.switch = .moving .home) :
    exec .homeReached s = .next (if s.engine.state = .recovering ∧ s.engine.timer.isSome = true then
      handOut { s with switch := .standing .home, engine := engineFree .idle none s.engine }
      else { s with switch := .standing .home }) := if_pos h

/-- Only the entry of its id is marked RUNNING by the take. -/
theorem taken_entries_apart {pre post : List Entry} {e : Entry} (hpre : ∀ x ∈ pre, x.id ≠ e.id) (hpost : ∀ x ∈ post, x.id ≠ e.id)
    (acq : Nat) :
    ((pre ++ e :: post).map fun x => if x.id = e.id then { x with running := some acq } else x)
      = pre ++ { e with running := some acq } :: post := by
  have hsame (es : List Entry) (hne : ∀ x ∈ es, x.id ≠ e.id) :
      (es.map fun x => if x.id = e.id then { x with running := some acq } else x) = es :=
    (List.map_congr_left fun x hx => if_neg (hne x hx)).trans (List.map_id' es)
  rw [List.map_append, List.map_cons, hsame pre hpre, hsame post hpost, if_pos rfl]

/-- The hand-out takes a CHECK that the switch has to move for. -/
theorem handOut_check {pre post : List Entry} {e : Entry} {b : RouteBody} (hidle : s.engine.state = .idle)
    (hfirst : FirstEligible pre e post s) (hpre : ∀ x ∈ pre, x.id ≠ e.id) (hpost : ∀ x ∈ post, x.id ≠ e.id)
    (hkind : e.kind = .check) (hbody : s.routes[e.route].body = some b) (haway : s.switch ≠ .standing (.port e.route)) :
    handOut s = { s with
      switch := .moving (.port e.route)
      queue := { s.queue with entries := pre ++ { e with running := some ((s.engine.acq + 1) % 65536) } :: post }
      engine := { s.engine with
        state := .switching, shotCount := 0, timer := some (.switch (timeoutMs s.device.timeout))
        acq := (s.engine.acq + 1) % 65536
        running := some { id := e.id, route := e.route, kind := .check, cls := e.cls, settings := b.acq } } } := by
  obtain ⟨n, hn⟩ := handOut_first hidle hfirst
  have htake : takeEntry e s = startSwitching e.route (taken e b s) := by
    rcases takeEntry_cases e s with ⟨hnone, -⟩ | ⟨b', hb', ⟨-, k⟩ | ⟨hcapture, -⟩ | ⟨hcapture, -⟩⟩
    · rw [hnone] at hbody
      cases hbody
    · obtain rfl : b = b' := Option.some.inj (hbody.symm.trans hb')
      exact k
    · rw [hkind] at hcapture
      cases hcapture
    · rw [hkind] at hcapture
      cases hcapture
  have hentries := taken_entries_apart hpre hpost ((s.engine.acq + 1) % 65536)
  rw [← hfirst.1] at hentries
  rw [hn, htake, startSwitching_of_away (s := taken e b s) haway, handOutLoop_of_not_idle n (by simp), ← hentries, ← hkind]
  rfl

end

/-- Settles O44, arrival by arrival. -/
theorem arrivalsOfTheSwitch : Obligations.ArrivalsOfTheSwitch := by
  refine fun s => ⟨fun p h => exec_settled_elsewhere h, fun p h => ⟨fun run hstate hrun hroute => ?_, fun hnot => ?_⟩,
    exec_homeReached_elsewhere, fun h => ⟨fun hnot => ?_, fun hstate htimer => ?_⟩⟩
  · rw [exec_settled h, if_pos ⟨hstate, by rw [hrun, ← hroute]; rfl⟩]
    rfl
  · rw [exec_settled h, if_neg]
    rintro ⟨hstate, hroute⟩
    obtain ⟨run, hrun, hr⟩ := Option.map_eq_some_iff.mp hroute
    rcases hnot with hne | hne
    · exact hne hstate
    · exact hne run hrun hr
  · rw [exec_homeReached h, if_neg]
    rintro ⟨hstate, htimer⟩
    rcases hnot with hne | hnone
    · exact hne hstate
    · rw [hnone] at htimer
      cases htimer
  · have hhome : exec .homeReached s
        = .next (handOut { s with switch := .standing .home, engine := engineFree .idle none s.engine }) := by
      rw [exec_homeReached h, if_pos ⟨hstate, Option.isSome_iff_ne_none.mpr htimer⟩]
    refine ⟨hhome, fun hnone => ?_, fun pre e post b acq running hsplit hbefore hpost hpre heligible hkind hbody hacq hrunning => ?_⟩
    · have hstill : handOut { s with switch := .standing .home, engine := engineFree .idle none s.engine }
          = { s with switch := .standing .home, engine := engineFree .idle none s.engine } :=
        handOut_of_noneEligible hnone (fun _ => rfl) fun _ hx => hx
      rw [hhome, hstill]
    · rw [hhome, handOut_check (s := { s with switch := .standing .home, engine := engineFree .idle none s.engine }) rfl
        ⟨hsplit, heligible, hbefore⟩ hpre hpost hkind hbody (by simp), hacq, hrunning]
      rfl

/-! ### The timers that fail (R9, R12, R18) -/

section
variable {s : State}

/-- An equipment error is recorded, logged and noticed (R21). -/
theorem equipError_only (k : EquipKind) (r : Option RouteNo) (s : State) :
    equipError k r s = { s with
      equip := some (recordAfter k r s.clock.now s.equip), log := (equipError k r s).log
      notices := (equipError k r s).notices } := by
  have hequip : (equipError k r s).equip = some (recordAfter k r s.clock.now s.equip) := by
    rw [equipError_equip]
    cases s.equip <;> rfl
  rw [← hequip]
  rfl

theorem equipError_raises (k : EquipKind) (r : Option RouteNo) (s : State) (c : Client) :
    perGet (equipError k r s).notices c = raisesOf (logRaise s.log c ++ [.equip]) (perGet s.notices c) := by
  unfold equipError raiseAll
  rw [perGet_raiseTo, if_pos rfl, logWrite_raises, raisesOf_append]
  rfl

/-- A finish without a finding leaves the queue, and the engine still holds its running entry (R16, R119). -/
theorem finishEntry_finish {run : Running} {e : Entry} (hq : QueueLaw s) (h : Runs s run e) (out : TestOutcome)
    (err : Option EquipKind) :
    ∃ u, finishEntry out err none none s = u
      ∧ u = { s with
        equip := u.equip, records := u.records, store := u.store, queue := u.queue, log := u.log, notices := u.notices }
      ∧ Finished run e out err (finishRecord run s.engine.acq out s.clock.now none none) s u ∧ ReservationReturned s u :=
  ⟨_, finishEntry_eq h.engine .., leftState_only hq h out err none none, leftState_finished hq h out err none none,
    leftState_returned out err none none⟩

theorem homeSwitch_away (h : s.switch ≠ .standing .home) :
    homeSwitch s = { s with
      switch := .moving .home
      engine := engineFree .recovering (some (.switch (timeoutMs s.device.timeout))) s.engine } := if_neg h

theorem exec_switchStuck {run : Running} {e : Entry} (hq : QueueLaw s) (h : Runs s run e) (hstate : s.engine.state = .switching)
    (haway : s.switch ≠ .standing .home) :
    ∃ t, exec .switchStuck s = .next t
      ∧ t = { s with
        switch := .moving .home
        engine := engineFree .recovering (some (.switch (timeoutMs s.device.timeout))) s.engine
        equip := t.equip, records := t.records, store := t.store, queue := t.queue, log := t.log, notices := t.notices }
      ∧ Finished run e .switchStuck (some .switchStuck) (finishRecord run s.engine.acq .switchStuck s.clock.now none none) s t
      ∧ ReservationReturned s t := by
  obtain ⟨u, hu, honly, hfinished, hreturned⟩ := finishEntry_finish hq h .switchStuck (some .switchStuck)
  have haway' : u.switch ≠ .standing .home := by
    rw [honly]
    exact haway
  have hhoming : engineFree .recovering (some (.switch (timeoutMs u.device.timeout))) u.engine
      = engineFree .recovering (some (.switch (timeoutMs s.device.timeout))) s.engine := by rw [honly]
  have hexec : exec .switchStuck s = .next (homeSwitch u) := by
    rw [← hu]
    exact congrArg Host.Outcome.next (if_pos hstate)
  rw [hexec, homeSwitch_away haway', hhoming]
  refine ⟨_, rfl, ?_, hfinished, hreturned⟩
  exact congrArg (fun v : State => { v with
    switch := .moving .home
    engine := engineFree .recovering (some (.switch (timeoutMs s.device.timeout))) s.engine }) honly

theorem exec_acqTimeout {run : Running} {e : Entry} (hq : QueueLaw s) (h : Runs s run e) (hstate : s.engine.state = .firing) :
    ∃ t, exec .acqTimeout s = .next (handOut t) ∧ (NoneEligible s → handOut t = t)
      ∧ FreedAfter .idle (frontOff s) t
      ∧ Finished run e .acqTimeout (some .acqTimeout) (finishRecord run s.engine.acq .acqTimeout s.clock.now none none) s t
      ∧ ReservationReturned s t := by
  obtain ⟨t, hconclude, honly, hfinished, hreturned, -, hquiet⟩ :=
    concludeIn_finish (s := frontOff s) hq (h.of_same rfl rfl) .acqTimeout (some .acqTimeout) none .idle
  refine ⟨t, ?_, fun hnone => hquiet (.inr hnone), honly, hfinished, hreturned⟩
  rw [← hconclude]
  exact congrArg Host.Outcome.next (if_pos hstate)

end

/-- Settles O45, timer by timer. -/
theorem timersThatFail : Obligations.TimersThatFail := by
  refine fun s => ⟨fun h => congrArg Host.Outcome.next (if_neg h), fun h => congrArg Host.Outcome.next (if_neg h), fun h => ?_,
    fun hstate htimer => ?_, fun hq hr run hrun => ⟨fun hstate haway => ?_, fun hstate => ?_⟩⟩
  · refine congrArg Host.Outcome.next (if_neg ?_)
    rintro ⟨hstate, htimer⟩
    rcases h with hne | hnone
    · exact hne hstate
    · rw [hnone] at htimer
      cases htimer
  · have hexec : exec .homeFailed s = .next { equipError .homeFailed none s with
        engine := { (equipError .homeFailed none s).engine with state := .faulted, timer := none } } :=
      congrArg Host.Outcome.next (if_pos ⟨hstate, Option.isSome_iff_ne_none.mpr htimer⟩)
    refine ⟨_, hexec, ?_, rfl, equipError_raises .homeFailed none s⟩
    exact congrArg (fun v : State => { v with engine := { s.engine with state := .faulted, timer := none } })
      (equipError_only .homeFailed none s)
  · obtain ⟨run', e, hruns⟩ := hr.runs (by rw [hstate]; rfl)
    obtain rfl : run' = run := Option.some.inj (hruns.engine.symm.trans hrun)
    exact ⟨e, hruns.mem, hruns.id, exec_switchStuck hq hruns hstate haway⟩
  · obtain ⟨run', e, hruns⟩ := hr.runs (by rw [hstate]; rfl)
    obtain rfl : run' = run := Option.some.inj (hruns.engine.symm.trans hrun)
    exact ⟨e, hruns.mem, hruns.id, exec_acqTimeout hq hruns hstate⟩

end Sys2Proof.Machine
end

section
/-! O46 and O47: the judged live check, and the shots. -/
namespace Sys2Proof.Machine

section
variable {s : State}

/-- A laser fault while the acquisition can be stopped finishes it (R19). -/
theorem faultEngine_stops {run : Running} {e : Entry} (hq : QueueLaw s) (h : Runs s run e) (hstop : canStop s.engine.state = true) :
    ∃ t, faultEngine s = t ∧ FreedAfter .faulted (frontOff s) t
      ∧ Finished run e .laserFault (some .laserFault) (finishRecord run s.engine.acq .laserFault s.clock.now none none) s t
      ∧ ReservationReturned s t := by
  obtain ⟨t, hconclude, hfreed, hfinished, hreturned, -, hstill⟩ :=
    concludeIn_finish (s := frontOff s) hq (h.of_same rfl rfl) .laserFault (some .laserFault) none .faulted
  rw [hstill (.inl (by decide))] at hconclude
  have hfault : faultEngine s = concludeIn .faulted (finishEntry .laserFault (some .laserFault) none none (frontOff s)) := by
    rcases faultEngine_cases s with ⟨-, k⟩ | ⟨hst, -⟩ | ⟨hst, -⟩
    · exact k
    · rcases hst with hst | hst <;> rw [hst] at hstop <;> cases hstop
    · rcases hst with hst | hst | hst <;> rw [hst] at hstop <;> cases hstop
  exact ⟨t, hfault.trans hconclude, hfreed, hfinished, hreturned⟩

theorem laserFault_of_released (h : s.shelf = none) :
    laserFault s = faultEngine { s with front := { s.front with laser := false } } := by
  unfold laserFault
  rw [h]
  rfl

/-! ### The live check (R3, R10, R30) -/

/-- The state in which the reading has been kept (R3). -/
def checkedState (rec : LiveRecord) (s : State) : State :=
  { s with front := { s.front with checking := false, record := some rec } }

theorem Runs.of_checked {run : Running} {e : Entry} (h : Runs s run e) (rec : LiveRecord) : Runs (checkedState rec s) run e :=
  h.of_same rfl rfl

theorem Runs.of_firing {run : Running} {e : Entry} (h : Runs s run e) (len : Nat) : Runs (firingState len s) run e :=
  ⟨h.engine, h.mem, h.only, h.found, h.id, h.route, h.kind, h.cls, h.acq⟩

theorem exec_liveCheckExpiry_elsewhere {reading : Averaged} (h : s.engine.state ≠ .liveCheck) :
    exec (.liveCheckExpiry reading) s = .next s := by
  show execLiveCheckExpiry reading s = _
  unfold execLiveCheckExpiry
  cases s.engine.running with
  | none => rfl
  | some run => exact if_neg h

theorem exec_liveCheckExpiry {reading : Averaged} {run : Running} {rec : LiveRecord} (h : s.engine.state = .liveCheck)
    (hrun : s.engine.running = some run)
    (hrec : rec = { level := levelOf reading.val, route := run.route, acq := s.engine.acq }) :
    exec (.liveCheckExpiry reading) s
      = .next (if s.device.live < levelOf reading.val then concludeIn .idle (finishEntry .liveLight none none none (checkedState rec s))
        else startFiring run.settings.len (checkedState rec s)) := by
  subst hrec
  show execLiveCheckExpiry reading s = _
  unfold execLiveCheckExpiry
  rw [hrun]
  exact if_pos h

end

/-- Settles O46: the reading against the live threshold, and a laser fault that stands. -/
theorem liveCheckIsJudged : Obligations.LiveCheckIsJudged := by
  refine fun reading s => ⟨exec_liveCheckExpiry_elsewhere, fun run rec hstate hrun hrec => ?_⟩
  have hexec := exec_liveCheckExpiry hstate hrun hrec
  have hruns (hr : RunLaw s) : ∃ e, Runs s run e := by
    obtain ⟨run', e, h⟩ := hr.runs (by rw [hstate]; rfl)
    obtain rfl : run' = run := Option.some.inj (h.engine.symm.trans hrun)
    exact ⟨e, h⟩
  refine ⟨fun hlow hfault => ?_, fun hq hr hlow hfault hshelf => ?_, fun hq hr hhigh => ?_⟩
  · rw [hexec, if_neg (by omega)]
    rcases startFiring_cases run.settings.len (checkedState rec s) with ⟨-, k⟩ | ⟨hstands, -⟩
    · rw [k]
      rfl
    · have hstands : s.front.fault = true := hstands
      rw [hfault] at hstands
      cases hstands
  · obtain ⟨e, h⟩ := hruns hr
    refine ⟨e, h.mem, h.id, ?_⟩
    rw [hexec, if_neg (by omega)]
    rcases startFiring_cases run.settings.len (checkedState rec s) with ⟨hclear, -⟩ | ⟨-, k⟩
    · have hclear : s.front.fault = false := hclear
      rw [hfault] at hclear
      cases hclear
    · have hfiring := (h.of_checked rec).of_firing run.settings.len
      obtain ⟨t, hgiven, hfreed, hfinished, hreturned⟩ := faultEngine_stops
        (s := { firingState run.settings.len (checkedState rec s) with
          front := { (firingState run.settings.len (checkedState rec s)).front with laser := false } })
        hq (hfiring.of_same rfl rfl) rfl
      rw [k, laserFault_of_released (s := firingState run.settings.len (checkedState rec s)) hshelf, hgiven]
      exact ⟨t, rfl, hfreed, hfinished, hreturned⟩
  · obtain ⟨e, h⟩ := hruns hr
    obtain ⟨t, hconclude, hfreed, hfinished, hreturned, -, hquiet⟩ :=
      concludeIn_finish (s := checkedState rec s) hq (h.of_checked rec) .liveLight none none .idle
    have hequip : t.equip = s.equip := hfinished.equip
    unfold FreedAfter at hfreed
    rw [hequip] at hfreed
    refine ⟨e, h.mem, h.id, t, ?_, fun hnone => hquiet (.inr hnone), hfreed, hfinished, hreturned⟩
    rw [hexec, if_pos hhigh, hconclude]

/-! ### The shots (R2, R11, R25) -/

section
variable {s : State} {acq : Nat} {samples : List Sample}

theorem exec_shotComplete_stray (h : s.engine.state ≠ .firing ∨ s.engine.acq ≠ acq) :
    exec (.shotComplete acq samples) s = .next s := by
  show execShotComplete acq samples s = _
  unfold execShotComplete
  cases s.engine.running with
  | none => rfl
  | some run => exact if_neg fun hboth => h.elim (fun hne => hne hboth.1) fun hne => hne hboth.2

theorem exec_shotComplete_short {run : Running} (hstate : s.engine.state = .firing) (hacq : s.engine.acq = acq)
    (hrun : s.engine.running = some run) (hlen : samples.length ≠ run.settings.len) :
    exec (.shotComplete acq samples) s = .refused .recordLength := by
  show execShotComplete acq samples s = _
  unfold execShotComplete
  rw [hrun]
  dsimp only
  rw [if_pos ⟨hstate, hacq⟩, if_pos hlen]

/-- The state with the record added to the sums (R11). -/
def gatheredState (samples : List Sample) (s : State) : State :=
  { s with engine := { s.engine with
    acc := addShot s.engine.acc samples, shotCount := s.engine.shotCount + 1, timer := some .shot } }

theorem exec_shotComplete {run : Running} (hstate : s.engine.state = .firing) (hacq : s.engine.acq = acq)
    (hrun : s.engine.running = some run) (hlen : samples.length = run.settings.len) :
    exec (.shotComplete acq samples) s
      = .next (if s.engine.shotCount + 1 < 2 ^ run.settings.shots then gatheredState samples s
        else startAnalysing run (gatheredState samples s)) := by
  show execShotComplete acq samples s = _
  unfold execShotComplete
  rw [hrun]
  dsimp only
  rw [if_pos ⟨hstate, hacq⟩, if_neg (not_not.mpr hlen)]
  rfl

/-- What ANALYSING copies of the route (R13, R25). -/
theorem analysisCopy_eq {run : Running} {b : RouteBody} {base : Option BaseRef}
    (hnone : run.kind = .capture ∨ b.baseline = none → base = none)
    (hsome : ∀ x, run.kind = .check → b.baseline = some x → base = some { blocks := x.blocks, eb := x.eb, acq := x.acq }) :
    (match run.kind with
      | .check => b.baseline.map fun x => { blocks := x.blocks, eb := x.eb, acq := x.acq }
      | .capture => none) = base := by
  cases hkind : run.kind with
  | capture => exact (hnone (.inl hkind)).symm
  | check =>
    cases hb : b.baseline with
    | none => exact (hnone (.inr hb)).symm
    | some x => exact (hsome x hkind hb).symm

end

/-- Settles O47: a stray record, one of a wrong length, an ordinary shot and the last one. -/
theorem shotsAreGathered : Obligations.ShotsAreGathered := by
  refine ⟨fun acc samples hlen => ⟨addShot_length hlen.symm, fun i h h' h'' => ?_⟩, fun acq samples s =>
    ⟨exec_shotComplete_stray, fun run hstate hacq hrun => ⟨exec_shotComplete_short hstate hacq hrun, fun hlen =>
      ⟨fun hmore => ?_, fun b base hlast hbody hnone hsome => ?_⟩⟩⟩⟩
  · have hat : (addShot acc samples)[i]
        = { sum := acc[i].sum + samples[i].toNat, sat := acc[i].sat || samples[i].toNat == 65535 } := List.getElem_zipWith ..
    rw [hat]
    rfl
  · rw [exec_shotComplete hstate hacq hrun hlen, if_pos hmore]
    rfl
  · rw [exec_shotComplete hstate hacq hrun hlen, if_neg (by omega), ← analysisCopy_eq hnone hsome, ← hacq]
    have hcopied : (gatheredState samples s).routes[run.route].body = some b := hbody
    unfold startAnalysing
    rw [hcopied]
    rfl

end Sys2Proof.Machine
end

section
/-! O50 and O51: the end of a write that a reset cut off, and the laser fault in every state. -/
namespace Sys2Proof.Machine

section
variable {s : State}

/-! ### A write that a reset cut off (R24, R92, R96) -/

theorem writeInFlight_iff : writeInFlight s = true ↔ ∃ r w data, s.store.resv = some r ∧ r.phase = .writing w data := by
  unfold writeInFlight
  rw [Option.isSome_iff_exists]
  constructor
  · rintro ⟨⟨w, blk, data⟩, h⟩
    obtain ⟨r, hr, hwriting⟩ := Option.bind_eq_some_iff.mp h
    exact ⟨r, w, data, hr, (writingBlock_eq_some.mp hwriting).1⟩
  · rintro ⟨r, w, data, hr, hp⟩
    exact ⟨_, Option.bind_eq_some_iff.mpr ⟨r, hr, writingBlock_eq_some.mpr ⟨hp, rfl⟩⟩⟩

theorem exec_blockWrite_none (h : writeInFlight s = false) : exec .blockWriteGood s = .next s ∧ exec .blockWriteFailed s = .next s := by
  have hgood : exec .blockWriteGood s = execBlockWriteGood s := rfl
  have hfailed : exec .blockWriteFailed s = execBlockWriteFailed s := rfl
  rw [hgood, hfailed]
  unfold execBlockWriteGood execBlockWriteFailed
  cases hr : s.store.resv with
  | none => exact ⟨rfl, rfl⟩
  | some r =>
    have hnone : writingBlock r = none := by
      unfold writeInFlight at h
      rw [hr] at h
      exact Option.not_isSome_iff_eq_none.mp (Bool.eq_false_iff.mp h)
    dsimp only
    rw [hnone]
    exact ⟨rfl, rfl⟩

/-- The homing that waited for the write is made, where the engine still waits and the line does not hold the card. -/
theorem cutOffEnds_eq {engine : Engine} {switch : SwitchPos} (store : Store) (count : Nat)
    (hwaited : s.shelf = none → s.engine.state = .recovering → s.switch ≠ .standing .home ∧ switch = .moving .home
      ∧ engine = engineFree .recovering (some (.switch (timeoutMs s.device.timeout))) s.engine)
    (hother : s.shelf ≠ none ∨ s.engine.state ≠ .recovering → engine = s.engine ∧ switch = s.switch) :
    cutOffEnds { s with store := store, freeCount := count }
      = { s with engine := engine, switch := switch, store := store, trace := .empty, freeCount := count } := by
  unfold cutOffEnds resumeHoming
  by_cases hwaits : s.shelf = none ∧ s.engine.state = .recovering
  · obtain ⟨hshelf, hstate⟩ := hwaits
    obtain ⟨haway, rfl, rfl⟩ := hwaited hshelf hstate
    rw [if_pos (by simp [hshelf, hstate])]
    exact homeSwitch_away (s := { s with store := store, freeCount := count, trace := .empty }) haway
  · obtain ⟨rfl, rfl⟩ := hother (not_and_or.mp hwaits)
    rw [if_neg (by simpa using hwaits)]

theorem exec_blockWriteGood_cutOff {r : Reservation} {w blk : Nat} {data : List Nat} (hresv : s.store.resv = some r)
    (hphase : r.phase = .writing w data) (hblk : r.blocks[w]? = some blk) (hstate : s.engine.state ≠ .committing) :
    exec .blockWriteGood s = .next (cutOffEnds { s with
      store := { s.store with
        free := giveBack r.blocks s.store.free, resv := none, mem := writeBlock blk data s.store.mem }
      freeCount := s.freeCount }) := by
  show execBlockWriteGood s = _
  unfold execBlockWriteGood
  rw [hresv]
  dsimp only
  rw [writingBlock_of hphase hblk]
  dsimp only
  rw [if_neg hstate]
  rfl

theorem exec_blockWriteFailed_cutOff {r : Reservation} {w blk : Nat} {data : List Nat} (hresv : s.store.resv = some r)
    (hphase : r.phase = .writing w data) (hblk : r.blocks[w]? = some blk) (hstate : s.engine.state ≠ .committing) :
    exec .blockWriteFailed s = .next (cutOffEnds (writeLost r blk s)) := by
  show execBlockWriteFailed s = _
  unfold execBlockWriteFailed
  rw [hresv]
  dsimp only
  rw [writingBlock_of hphase hblk]
  dsimp only
  rw [if_neg hstate]

theorem mem_lostFree {r : Reservation} {blk : Nat} (k : Nat) :
    k ∈ giveBack (r.blocks.filter (· != blk)) s.store.free ↔ k ∈ r.blocks ∧ k ≠ blk ∨ k ∈ s.store.free := by
  rw [giveBack_mem, List.mem_filter, bne_iff_ne]

end

/-- Settles O50: a good and a failed write, each followed by the homing that waited for it. -/
theorem blockWritesAfterAReset : Obligations.BlockWritesAfterAReset := by
  refine fun s => ⟨writeInFlight_iff, exec_blockWrite_none,
    fun r w data blk engine switch hresv hphase hblk hstate hwaited hother => ⟨?_, ?_⟩⟩
  · have hdone := cutOffEnds_eq
      { s.store with free := giveBack r.blocks s.store.free, resv := none, mem := writeBlock blk data s.store.mem }
      s.freeCount hwaited hother
    exact ⟨_, (exec_blockWriteGood_cutOff hresv hphase hblk hstate).trans (congrArg Host.Outcome.next hdone), rfl, rfl, rfl, rfl,
      fun k => giveBack_mem _ _ k⟩
  · have hlost := cutOffEnds_eq (writeLost r blk s).store (s.freeCount + 1) hwaited hother
    refine ⟨_, (exec_blockWriteFailed_cutOff hresv hphase hblk hstate).trans (congrArg Host.Outcome.next hlost), rfl, rfl,
      fun k => mem_lostFree k, fun k => mem_insertNumber blk _ k, fun k hk => readBlock_writeLost hk⟩

/-! ### The laser fault (R4, R19, R24) -/

section
variable {s : State}

/-- The laser-fault signal while no acquisition can be stopped: the error is recorded, and the engine keeps the marker or is
FAULTED. -/
theorem faultEngine_recorded {route : Option RouteNo} {engine : Engine}
    (hstage : s.engine.state = .analysing ∨ s.engine.state = .committing →
      route = s.engine.running.map Running.route ∧ engine = { s.engine with marker := true })
    (hrest : s.engine.state = .idle ∨ s.engine.state = .recovering ∨ s.engine.state = .faulted →
      route = none ∧ engine = { s.engine with state := .faulted, timer := none })
    (hstop : canStop s.engine.state = false) :
    faultEngine s = { equipError .laserFault route s with engine := engine } := by
  rcases faultEngine_cases s with ⟨hstops, -⟩ | ⟨hst, k⟩ | ⟨hst, k⟩
  · rw [hstop] at hstops
    cases hstops
  · obtain ⟨rfl, rfl⟩ := hstage hst
    exact k
  · obtain ⟨rfl, rfl⟩ := hrest hst
    exact k

end

/-- Settles O51, by the hold, the stages that can be stopped and the others. -/
theorem laserFaults : Obligations.LaserFaults := by
  refine fun s => ⟨rfl, fun hheld => ?_, fun hshelf => ⟨fun run hq hr hrun hstop => ?_,
    fun route engine hstage hrest hstop => ?_⟩⟩
  · have hexec : exec .laserFaultSignal s = .next (laserFault { s with front := { s.front with fault := true } }) := rfl
    rcases laserFault_cases { s with front := { s.front with fault := true } } with ⟨-, k⟩ | ⟨hnone, -⟩
    · rw [hexec, k]
    · exact absurd hnone hheld
  · obtain ⟨run', e, hruns⟩ := hr.runs (busy_of_canStop hstop)
    obtain rfl : run' = run := Option.some.inj (hruns.engine.symm.trans hrun)
    obtain ⟨t, hgiven, hfreed, hfinished, hreturned⟩ := faultEngine_stops
      (s := { s with front := { s.front with laser := false, fault := true } }) hq (hruns.of_same rfl rfl) hstop
    refine ⟨e, hruns.mem, hruns.id, t, ?_, hfreed, hfinished, hreturned⟩
    rw [← hgiven]
    exact congrArg Host.Outcome.next (laserFault_of_released (s := { s with front := { s.front with fault := true } }) hshelf)
  · have hgiven := faultEngine_recorded (s := { s with front := { s.front with laser := false, fault := true } })
      hstage hrest hstop
    have hexec : exec .laserFaultSignal s
        = .next (faultEngine { s with front := { s.front with laser := false, fault := true } }) :=
      congrArg Host.Outcome.next (laserFault_of_released (s := { s with front := { s.front with fault := true } }) hshelf)
    rw [hexec, hgiven]
    refine ⟨_, rfl, ?_, rfl, equipError_raises .laserFault route _⟩
    exact congrArg (fun v : State => { v with engine := engine })
      (equipError_only .laserFault route { s with front := { s.front with laser := false, fault := true } })

end Sys2Proof.Machine
end
